-- ==== Sys2Proof/Word.lean ====
section
/-! DEFINITION. Sys2Proof/Word.lean: the widths of the SPN16 round processor (00_scope.md R6, R7). -/

namespace Sys2Proof

/-- A host-visible register value or a command word, `REG_W` = `CMD_W` = 32 bits (R7). -/
abbrev Word := BitVec 32

/-- A cipher block or a round key, `BLOCK_W` = 16 bits (R6). -/
abbrev Block := BitVec 16

/-- A nibble: an S-box value, a bit position, or an index operand, `NIBBLE_W` = 4 bits (R6). -/
abbrev Nibble := BitVec 4

/-- A table of `SBOX_ENTRIES` = `PBOX_ENTRIES` = 16 entries of 4 bits (R6). -/
abbrev Table := Vector Nibble 16

/-- The key schedule: `NUM_RK` = 5 round keys of 16 bits (R6). -/
abbrev KeySchedule := Vector Block 5

/-- Nibble `j` of a block, `s[4j+3:4j]`; bit 0 is the least significant bit (R9). -/
def nibbleOf (s : Block) (j : Nat) : Nibble := s.extractLsb' (4 * j) 4

/-- The indices `0..15` of a table, in the order the spec's loops visit them. -/
def nibbles : List Nibble := [0, 1, 2, 3, 4, 5, 6, 7, 8, 9, 10, 11, 12, 13, 14, 15]

end Sys2Proof
end

