-- ==== Sys2Proof/Syntax.lean ====
section
/-! DEFINITION. Sys2Proof/Syntax.lean: the 16 commands of the SPN16 round processor, one constructor for each row of
spec/opcode_table.json (30_encoding.md R73). -/

namespace Sys2Proof

/-- A command. An index operand is the 4-bit field `IDX` of the command word (R71, R72); which of its values are legal is
`Instr.wellFormed`. Data operands are never part of a command: they come from `DIN` (R72). -/
inductive Instr where
  /-- NOP (R164): do nothing. -/
  | nop
  /-- LDST (R163): load `STATE` from `DIN`. -/
  | ldst
  /-- WRRK i (R161): write round key `i`. -/
  | wrrk (i : Nibble)
  /-- WRS n (R101): write one staging S-box entry. -/
  | wrs (n : Nibble)
  /-- WRSI n (R102): write one staging inverse S-box entry. -/
  | wrsi (n : Nibble)
  /-- WRP n (R103): write one staging P-box entry. -/
  | wrp (n : Nibble)
  /-- COMMIT (R104): validate the staging tables and activate them. -/
  | commit
  /-- CLRERR (R165): clear the error status. -/
  | clrerr
  /-- SUB (R123): substitute `STATE` through the active S-box. -/
  | sub
  /-- SUBI (R124): substitute `STATE` through the active inverse S-box. -/
  | subi
  /-- PERM (R125): permute the bits of `STATE` through the active P-box. -/
  | perm
  /-- PERMI (R126): permute the bits of `STATE` through the derived inverse P-box. -/
  | permi
  /-- KMIX i (R127): mix round key `i` into `STATE`. -/
  | kmix (i : Nibble)
  /-- KMIXD (R128): mix the value in `DIN` into `STATE`. -/
  | kmixd
  /-- ENC (R141): encrypt `STATE` in place. -/
  | enc
  /-- DEC (R143): decrypt `STATE` in place. -/
  | dec
deriving DecidableEq, Repr

end Sys2Proof
end

