-- ==== Sys2Proof/WellFormed.lean ====
section
/-! DEFINITION. Sys2Proof/WellFormed.lean: the legal operand values of each command (30_encoding.md R72, R74). -/

namespace Sys2Proof

/-- The index of a command is legal: a round-key number is 0..4, a table entry number is any of 0..15 (R72). -/
def Instr.wellFormed : Instr → Bool
  | .nop => true
  | .ldst => true
  | .wrrk i => decide (i.toNat ≤ 4)
  | .wrs _ => true
  | .wrsi _ => true
  | .wrp _ => true
  | .commit => true
  | .clrerr => true
  | .sub => true
  | .subi => true
  | .perm => true
  | .permi => true
  | .kmix i => decide (i.toNat ≤ 4)
  | .kmixd => true
  | .enc => true
  | .dec => true

end Sys2Proof
end

