-- ==== Sys2Proof/Decode.lean ====
section
/-! DEFINITION. Sys2Proof/Decode.lean: the command word, its decoder and its encoder (30_encoding.md R70 to R76). -/

namespace Sys2Proof

/-- Why a word is not a legal command (R75). All four are answered by the same `IllegalCommand` (R184). -/
inductive DecodeError where
  /-- A nonzero bit in `RSV`, bits 31:12. -/
  | reservedBits
  /-- `OPC` is in 0x08..0x0F, 0x16..0x1F or 0x22..0xFF. -/
  | reservedOpcode
  /-- WRRK or KMIX with `IDX` in 5..15. -/
  | keyIndexOutOfRange
  /-- A command that takes no index, with `IDX` not 0. -/
  | indexNotZero
deriving DecidableEq, Repr

/-- `OPC`, bits 7:0 of a command word (R71). -/
def opcOf (w : Word) : BitVec 8 := w.extractLsb' 0 8

/-- `IDX`, bits 11:8 of a command word (R71). -/
def idxOf (w : Word) : Nibble := w.extractLsb' 8 4

/-- `RSV`, bits 31:12 of a command word (R71). -/
def rsvOf (w : Word) : BitVec 20 := w.extractLsb' 12 20

/-- Rule R74's predicate, word for word: which words are legal commands. -/
def legal (w : Word) : Bool :=
  decide (w.extractLsb' 12 20 = 0)
  && decide ((w.extractLsb' 0 8).toNat ∈ [0x00, 0x01, 0x02, 0x03, 0x04, 0x05, 0x06, 0x07,
      0x10, 0x11, 0x12, 0x13, 0x14, 0x15, 0x20, 0x21])
  && (if (w.extractLsb' 0 8).toNat ∈ [0x02, 0x14] then decide ((w.extractLsb' 8 4).toNat ≤ 4)
      else if (w.extractLsb' 0 8).toNat ∈ [0x03, 0x04, 0x05] then true
      else decide (w.extractLsb' 8 4 = 0))

/-- A command that takes no index: `IDX` must be 0 (R72). -/
def withoutIndex (idx : Nibble) (i : Instr) : Except DecodeError Instr :=
  if idx = 0 then .ok i else .error .indexNotZero

/-- A command whose index is a round-key number: `IDX` must be 0..4 (R72). -/
def withKeyIndex (idx : Nibble) (f : Nibble → Instr) : Except DecodeError Instr :=
  if idx.toNat ≤ 4 then .ok (f idx) else .error .keyIndexOutOfRange

/-- The decoder (R73, R74): total on every 32-bit word, and reading nothing but the word. -/
def decode (w : Word) : Except DecodeError Instr :=
  if rsvOf w = 0 then
    match (opcOf w).toNat with
    | 0x00 => withoutIndex (idxOf w) .nop
    | 0x01 => withoutIndex (idxOf w) .ldst
    | 0x02 => withKeyIndex (idxOf w) .wrrk
    | 0x03 => .ok (.wrs (idxOf w))
    | 0x04 => .ok (.wrsi (idxOf w))
    | 0x05 => .ok (.wrp (idxOf w))
    | 0x06 => withoutIndex (idxOf w) .commit
    | 0x07 => withoutIndex (idxOf w) .clrerr
    | 0x10 => withoutIndex (idxOf w) .sub
    | 0x11 => withoutIndex (idxOf w) .subi
    | 0x12 => withoutIndex (idxOf w) .perm
    | 0x13 => withoutIndex (idxOf w) .permi
    | 0x14 => withKeyIndex (idxOf w) .kmix
    | 0x15 => withoutIndex (idxOf w) .kmixd
    | 0x20 => withoutIndex (idxOf w) .enc
    | 0x21 => withoutIndex (idxOf w) .dec
    | _ => .error .reservedOpcode
  else .error .reservedBits

/-- The opcode of a command (R73). -/
def Instr.opcode : Instr → BitVec 8
  | .nop => 0x00
  | .ldst => 0x01
  | .wrrk _ => 0x02
  | .wrs _ => 0x03
  | .wrsi _ => 0x04
  | .wrp _ => 0x05
  | .commit => 0x06
  | .clrerr => 0x07
  | .sub => 0x10
  | .subi => 0x11
  | .perm => 0x12
  | .permi => 0x13
  | .kmix _ => 0x14
  | .kmixd => 0x15
  | .enc => 0x20
  | .dec => 0x21

/-- The index field of a command: 0 where it takes none (R72). -/
def Instr.index : Instr → Nibble
  | .nop => 0
  | .ldst => 0
  | .wrrk i => i
  | .wrs n => n
  | .wrsi n => n
  | .wrp n => n
  | .commit => 0
  | .clrerr => 0
  | .sub => 0
  | .subi => 0
  | .perm => 0
  | .permi => 0
  | .kmix i => i
  | .kmixd => 0
  | .enc => 0
  | .dec => 0

/-- The encoder: `w = zext_32(IDX ++ OPC)` (R71). -/
def encode (i : Instr) : Word := (i.index ++ i.opcode).setWidth 32

/-- The instruction the decoder reads from the table's numbering of a word: a command is one 32-bit word written in one bus
transaction (R76), so the bits are the word itself. Bits at `nbits` and above are 0; more than 32 bits are no command. -/
def decodeTableWord (nbits w : Nat) : Option Instr :=
  if nbits ≤ 32 then (decode (BitVec.ofNat 32 (w % 2 ^ nbits))).toOption else none

end Sys2Proof
end

