-- ==== Sys2Proof/Machine/TableOps.lean ====
section
/-! DEFINITION. Sys2Proof/Machine/TableOps.lean: reading, writing, validating and inverting a 16-entry table
(00_scope.md R11; 41_config_tables.md R105, R108). -/

namespace Sys2Proof.Machine

/-- `T[n]` (R11). -/
def lookup (t : Table) (n : Nibble) : Nibble := t[n.toNat]'n.isLt

/-- `T` with `T[n] <- v`. -/
def update (t : Table) (n v : Nibble) : Table := t.set n.toNat v n.isLt

/-- `bij(T)` (R105): for every `v` in 0..15 there is exactly one `x` in 0..15 with `T[x] == v`. -/
def bij (t : Table) : Bool := nibbles.all fun v => nibbles.countP (fun x => lookup t x == v) == 1

/-- `valid(S, SI, P)` (R105). -/
def valid (s si p : Table) : Bool :=
  bij s && bij p && nibbles.all fun x => lookup si (lookup s x) == x

/-- `inverse(P)` (R108): `Q[P[i]] <- i` for `i` in 0..15. The table it starts from is never seen: the block inverts only
a bijection, so every entry is written. -/
def inverse (p : Table) : Table :=
  nibbles.foldl (fun q i => update q (lookup p i) i) (Vector.replicate 16 0)

end Sys2Proof.Machine
end

