-- ==== Sys2Proof/Machine/Datapath.lean ====
section
/-! DEFINITION. Sys2Proof/Machine/Datapath.lean: the three datapath functions (42_round_primitives.md R120 to R122). -/

namespace Sys2Proof.Machine

/-- `Substitute(s, T) = T[s[15:12]] ++ T[s[11:8]] ++ T[s[7:4]] ++ T[s[3:0]]` (R120). -/
def substitute (s : Block) (t : Table) : Block :=
  lookup t (nibbleOf s 3) ++ lookup t (nibbleOf s 2) ++ lookup t (nibbleOf s 1) ++ lookup t (nibbleOf s 0)

/-- `Permute(s, Q)` (R121): every set bit `i` of `s` sets bit `Q[i]` of the result; all other bits are 0. -/
def permute (s : Block) (q : Table) : Block :=
  nibbles.foldl (fun r i => if s.getLsbD i.toNat then r ||| (1 : Block) <<< (lookup q i).toNat else r) 0

/-- `KeyMix(s, k) = s xor k` (R122). -/
def keyMix (s k : Block) : Block := s ^^^ k

end Sys2Proof.Machine
end

