-- ==== Sys2Proof/Machine/Reference.lean ====
section
/-! DEFINITION. Sys2Proof/Machine/Reference.lean: the reference tables of 10_state.md R33, the reset contents of the
staging and active tables (R36). -/

namespace Sys2Proof.Machine

/-- `S_REF` (R33). -/
def sRef : Table :=
  #v[0xE, 0x4, 0xD, 0x1, 0x2, 0xF, 0xB, 0x8, 0x3, 0xA, 0x6, 0xC, 0x5, 0x9, 0x0, 0x7]

/-- `S_REF_INV` (R33). -/
def sRefInv : Table :=
  #v[0xE, 0x3, 0x4, 0x8, 0x1, 0xC, 0xA, 0xF, 0x7, 0xD, 0x9, 0x6, 0xB, 0x2, 0x0, 0x5]

/-- `P_REF` (R33). -/
def pRef : Table :=
  #v[0x0, 0x4, 0x8, 0xC, 0x1, 0x5, 0x9, 0xD, 0x2, 0x6, 0xA, 0xE, 0x3, 0x7, 0xB, 0xF]

/-- `P_REF_INV` (R33): the reference P-box is its own inverse. -/
def pRefInv : Table :=
  #v[0x0, 0x4, 0x8, 0xC, 0x1, 0x5, 0x9, 0xD, 0x2, 0x6, 0xA, 0xE, 0x3, 0x7, 0xB, 0xF]

end Sys2Proof.Machine
end

