-- ==== Sys2Proof/Machine/State.lean ====
section
/-! DEFINITION. Sys2Proof/Machine/State.lean: everything the spec gives the block (10_state.md R21 to R33, R22 to R26),
with the host's side of the port, and the state after reset (R36). The block has no memory and no program counter
(R34, R35, R50): commands arrive as host writes. -/

namespace Sys2Proof.Machine

/-- The four error kinds (60_exceptions.md R181). -/
inductive ErrorKind where
  /-- Code 1: a table entry out of range, or staging tables that fail validation (R187). -/
  | invalidMapping
  /-- Code 2: a `DIN` operand outside the 16-bit domain while `CTRL.STRICT` is 1 (R185). -/
  | invalidBlockSize
  /-- Code 3: a command word that is not legal (R184). -/
  | illegalCommand
  /-- Code 4: a command that reads an active table while `CFG_VALID` is 0 (R186). -/
  | notConfigured
deriving DecidableEq, Repr

/-- One bus access to the window: its byte offset and its size in bytes. Only 4-byte accesses at a multiple of 4 are
admitted (20_memory.md R51). -/
structure Access where
  offset : Nat
  bytes : Nat
deriving DecidableEq, Repr

/-- What the outside world does at the block's port, in the order the port accepts it (20_memory.md R58). -/
inductive PortEvent where
  /-- A host read (R53). -/
  | read (a : Access)
  /-- A host write of `v` (R54). An access of another size than 32 bits is not admitted, whatever data it carries (R51). -/
  | write (a : Access) (v : Word)
  /-- A host access, read or write, of `bytes` bytes that starts `below` bytes before the window and runs into it. It starts
  at no offset of the window, so it is none that R51 admits (DEDUCED; assumption log, entry 2). -/
  | straddle (below bytes : Nat)
  /-- The reset input is asserted and released between two transactions (70_reset_and_hazards.md R210). -/
  | reset
  /-- The host wrote command `w` to CMD, and reset is asserted while that command executes (R212). -/
  | resetDuring (w : Word)
deriving DecidableEq, Repr

/-- What the port returns to the host (70_reset_and_hazards.md R219). -/
inductive Response where
  /-- The value a read returned. -/
  | value (v : Word)
  /-- A write, and the command it may have issued, has completed. -/
  | completion
  /-- What the platform answered to a transaction that reset cut short (R212): a free value. -/
  | cutShort (v : Word)
deriving DecidableEq, Repr

/-- The whole machine. The fields down to `piAct` are the spec's; the last three are the host's side of the port, which
the model holds so that one step is one transaction. -/
structure State where
  /-- `STATE`, the cipher state (R21). -/
  state : Block
  /-- `DIN`, the operand register (R22). -/
  din : Word
  /-- `RK[0]`..`RK[4]` (R27). -/
  rk : KeySchedule
  /-- `CTRL.STRICT` (R23). -/
  strict : Bool
  /-- `CTRL.ERRIE` (R23). -/
  errie : Bool
  /-- `STATUS.CFG_VALID` (R24, R32). -/
  cfgValid : Bool
  /-- `STATUS.E_MAP` (R24). -/
  eMap : Bool
  /-- `STATUS.E_BLK` (R24). -/
  eBlk : Bool
  /-- `STATUS.E_CMD` (R24). -/
  eCmd : Bool
  /-- `STATUS.E_CFG` (R24). -/
  eCfg : Bool
  /-- `STATUS.LASTERR` (R24, R181). -/
  lasterr : Nibble
  /-- `ERRCMD`, the word of the last command that raised an error (R26). -/
  errcmd : Word
  /-- `S_STG`, the candidate S-box (R28). -/
  sStg : Table
  /-- `SI_STG`, the candidate inverse S-box (R28). -/
  siStg : Table
  /-- `P_STG`, the candidate P-box (R28). -/
  pStg : Table
  /-- `S_ACT`, the active S-box (R29). -/
  sAct : Table
  /-- `SI_ACT`, the active inverse S-box (R29). -/
  siAct : Table
  /-- `P_ACT`, the active P-box (R29). -/
  pAct : Table
  /-- `PI_ACT`, the derived inverse P-box (R30). -/
  piAct : Table
  /-- The model's own: the events the port will accept next, oldest first (R58). -/
  pending : List PortEvent
  /-- The model's own: the port's responses so far, oldest first (R218, R219). -/
  responses : List Response
  /-- The model's own: how many free values have been drawn (`Sys2Proof.Config.cutShortResponse`). -/
  draws : Nat
deriving DecidableEq, Repr

/-- Why the machine stops with a fault. No command does: an error is recorded and the block goes on (R180). -/
inductive Fault where
  /-- Raised by `guardAccess` on an access at an offset of `WINDOW_SIZE` or more: the spec's one address space has no such
  address (R50, R51). Safe: the model stops and claims nothing. -/
  | outsideWindow
deriving DecidableEq, Repr

/-- Why the model refuses a step. -/
inductive Refusal where
  /-- Raised by an arm of `exec` without a meaning; no arm is without one. Safe: the model stops. -/
  | notModelled (mnemonic : String)
  /-- Raised by `guardAccess` on an access that starts inside the window and is not an aligned 32-bit one, and by `serve` on
  one that runs into the window from below (`BUS_NARROW`, R51: "The model gives such an access no step"). Safe: the model
  stops and claims nothing. -/
  | busNarrow
deriving DecidableEq, Repr

/-- The state right after reset (R36, R210), with nothing waiting at the port. -/
def State.reset : State where
  state := 0x0000
  din := 0x00000000
  rk := #v[0x0000, 0x0000, 0x0000, 0x0000, 0x0000]
  strict := false
  errie := false
  cfgValid := true
  eMap := false
  eBlk := false
  eCmd := false
  eCfg := false
  lasterr := 0
  errcmd := 0x00000000
  sStg := sRef
  siStg := sRefInv
  pStg := pRef
  sAct := sRef
  siAct := sRefInv
  pAct := pRef
  piAct := pRefInv
  pending := []
  responses := []
  draws := 0

end Sys2Proof.Machine
end

