-- ==== Sys2Proof/Machine/Operands.lean ====
section
/-! DEFINITION. Sys2Proof/Machine/Operands.lean: the checks an operand passes before a command uses it. A check answers the
operand, or the error the command raises (44_keys_and_control.md R160; 41_config_tables.md R100; 30_encoding.md R72;
60_exceptions.md R186). -/

namespace Sys2Proof.Machine

/-- `ent(DIN)` (R100): the table-entry check of WRS, WRSI and WRP. It never masks and does not depend on `STRICT`. -/
def ent (s : State) : Except ErrorKind Nibble :=
  if s.din.extractLsb' 4 28 = 0 then .ok (s.din.extractLsb' 0 4) else .error .invalidMapping

/-- `blk(DIN)` (R160): the block-size check of LDST, WRRK and KMIXD. `STRICT` = 0 masks, `STRICT` = 1 rejects. -/
def blk (s : State) : Except ErrorKind Block :=
  if s.strict && decide (s.din.extractLsb' 16 16 ≠ 0) then .error .invalidBlockSize
  else .ok (s.din.extractLsb' 0 16)

/-- The round-key number of WRRK and KMIX (R72). The decoder lets no index above 4 through (R74); on such an index the
command itself raises `IllegalCommand`, as rules R161 and R127 list it. -/
def keyIndex (i : Nibble) : Except ErrorKind (Fin 5) :=
  if h : i.toNat < 5 then .ok ⟨i.toNat, h⟩ else .error .illegalCommand

/-- The check of every command that reads an active table (R186). -/
def configured (s : State) : Except ErrorKind Unit :=
  if s.cfgValid then .ok () else .error .notConfigured

end Sys2Proof.Machine
end

