-- ==== Sys2Proof/Config.lean ====
section
/-! DEFINITION. Sys2Proof/Config.lean: what the platform or an implementation fixes, and the free values
(00_scope.md R7, R8). `BASE` is an argument of `Sys2Proof.Machine.windowOffset`; `MASTER_INTERLEAVE` is the
relation `Sys2Proof.Machine.interleaves`; `BUS_NARROW` is the refusal `Sys2Proof.Machine.Refusal.busNarrow`;
`CMD_LATENCY` has no counterpart, since nothing observes it (R217; assumption log, entry 5). -/

namespace Sys2Proof.Config

/-- `WINDOW_SIZE`: the register window holds 0x100 bytes (R7, R37). -/
def windowSize : Nat := 0x100

/-- FREE VALUE. What the platform answers to a transaction that reset cuts short: R212 says "whatever response the
platform gives", 93_implementation_defined.md section 2 says "any value". The argument numbers the draws, so that no two
draws are tied to each other. Nothing can evaluate it (assumption log, entry 4). -/
opaque cutShortResponse : Nat → Word

end Sys2Proof.Config
end

