-- ==== Sys2Proof/Machine/Flags.lean ====
section
/-! DEFINITION. Sys2Proof/Machine/Flags.lean: the error codes, the words a host reads from CTRL and STATUS, and the interrupt
line (10_state.md R23, R24, R38; 60_exceptions.md R181, R190). No datapath command writes a flag unless it raises an
error (R34). -/

namespace Sys2Proof.Machine

/-- The code an error leaves in `LASTERR` (R181). -/
def ErrorKind.code : ErrorKind → Nibble
  | .invalidMapping => 1
  | .invalidBlockSize => 2
  | .illegalCommand => 3
  | .notConfigured => 4

/-- `E_bit(E)`: the sticky bit of an error kind (R181). -/
def State.errorBit (s : State) : ErrorKind → Bool
  | .invalidMapping => s.eMap
  | .invalidBlockSize => s.eBlk
  | .illegalCommand => s.eCmd
  | .notConfigured => s.eCfg

/-- `E_MAP or E_BLK or E_CMD or E_CFG`. -/
def State.anyError (s : State) : Bool := s.eMap || s.eBlk || s.eCmd || s.eCfg

/-- A CTRL read: `zext_32(ERRIE ++ STRICT)` (R23). -/
def State.ctrlWord (s : State) : Word :=
  (BitVec.ofBool s.errie ++ BitVec.ofBool s.strict).setWidth 32

/-- A STATUS read: `zext_32(LASTERR ++ E_CFG ++ E_CMD ++ E_BLK ++ E_MAP ++ 0b000 ++ CFG_VALID)` (R24). -/
def State.statusWord (s : State) : Word :=
  (s.lasterr ++ BitVec.ofBool s.eCfg ++ BitVec.ofBool s.eCmd ++ BitVec.ofBool s.eBlk ++ BitVec.ofBool s.eMap
    ++ (0 : BitVec 3) ++ BitVec.ofBool s.cfgValid).setWidth 32

/-- The output wire `err_irq` (R38, R190): level-sensitive, with no latch of its own. -/
def State.errIrq (s : State) : Bool := s.errie && s.anyError

end Sys2Proof.Machine
end

