-- ==== Sys2Proof/Machine/Ops.lean ====
section
/-! DEFINITION. Sys2Proof/Machine/Ops.lean: the named updates of the machine's registers and tables, raising an error and
clearing the record of it (60_exceptions.md R183, R191; 44_keys_and_control.md R165), and reset (70_reset_and_hazards.md
R210). -/

namespace Sys2Proof.Machine

/-- `STATE <- v`. -/
def State.setState (s : State) (v : Block) : State := { s with state := v }

/-- `RK[i] <- v`. -/
def State.setRk (s : State) (i : Fin 5) (v : Block) : State := { s with rk := s.rk.set i v }

/-- `S_STG[n] <- v`. -/
def State.setSStg (s : State) (n v : Nibble) : State := { s with sStg := update s.sStg n v }

/-- `SI_STG[n] <- v`. -/
def State.setSiStg (s : State) (n v : Nibble) : State := { s with siStg := update s.siStg n v }

/-- `P_STG[n] <- v`. -/
def State.setPStg (s : State) (n v : Nibble) : State := { s with pStg := update s.pStg n v }

/-- Activation of the staging tables, as one change (41_config_tables.md R106). -/
def State.activate (s : State) : State :=
  { s with sAct := s.sStg, siAct := s.siStg, pAct := s.pStg, piAct := inverse s.pStg, cfgValid := true }

/-- `CFG_VALID <- 0` (41_config_tables.md R107). -/
def State.invalidate (s : State) : State := { s with cfgValid := false }

/-- `raise E(code)` inside the command whose word is `w` (R183): the error's bit is set, `LASTERR` and `ERRCMD` are
overwritten, and nothing else changes. The block has no handler to enter (R180). -/
def State.raiseError (s : State) (e : ErrorKind) (w : Word) : State :=
  { s with
    eMap := s.eMap || decide (e = .invalidMapping)
    eBlk := s.eBlk || decide (e = .invalidBlockSize)
    eCmd := s.eCmd || decide (e = .illegalCommand)
    eCfg := s.eCfg || decide (e = .notConfigured)
    lasterr := e.code
    errcmd := w }

/-- The error record cleared (R165). The block has no return from an error but this (R191). -/
def State.clearErrors (s : State) : State :=
  { s with eMap := false, eBlk := false, eCmd := false, eCfg := false, lasterr := 0, errcmd := 0 }

/-- A host write to CTRL (10_state.md R23): bits 31:2 are ignored. -/
def State.writeCtrl (s : State) (v : Word) : State := { s with strict := v.getLsbD 0, errie := v.getLsbD 1 }

/-- A host write to DIN (10_state.md R22). -/
def State.writeDin (s : State) (v : Word) : State := { s with din := v }

/-- The port has accepted an event: `rest` waits behind it. -/
def State.accept (s : State) (rest : List PortEvent) : State := { s with pending := rest }

/-- The port returns `r` to the host. -/
def State.respond (s : State) (r : Response) : State := { s with responses := s.responses ++ [r] }

/-- Reset as the block sees it (R210): every piece of the block's state takes its reset value. What the host still has to
send, and what it has been answered, are not the block's state. -/
def State.resetBlock (s : State) : State :=
  { State.reset with pending := s.pending, responses := s.responses, draws := s.draws }

/-- The platform answers a transaction that reset cut short with a free value (R212). -/
def State.respondCutShort (s : State) : State :=
  { s with responses := s.responses ++ [.cutShort (Config.cutShortResponse s.draws)], draws := s.draws + 1 }

/-- The end of a command whose word is `w`: its results take effect together, or it raises its one error and changes nothing
else (R183, R188; 20_memory.md R56). -/
def endCommand (w : Word) (s : State) (r : Except ErrorKind State) : Host.Outcome State Fault Refusal :=
  match r with
  | .ok t => .next t
  | .error e => .next (s.raiseError e w)

end Sys2Proof.Machine
end

