-- ==== Sys2Proof/Machine/Cipher.lean ====
section
/-! DEFINITION. Sys2Proof/Machine/Cipher.lean: the cipher functions and the commands ENC and DEC (43_cipher.md). -/

namespace Sys2Proof.Machine

/-- `Encrypt(p)` (R140): three rounds of key mix, substitution and permutation with `RK[r-1]` for `r` = 1, 2, 3, and a
final round without the permutation (R145). -/
def encrypt (rk : KeySchedule) (sBox pBox : Table) (p : Block) : Block :=
  let s := [rk[0], rk[1], rk[2]].foldl (fun s k => permute (substitute (keyMix s k) sBox) pBox) p
  keyMix (substitute (keyMix s rk[3]) sBox) rk[4]

/-- `Decrypt(c)` (R142), with the inverse tables; the rounds run with `RK[r]` for `r` = 3, 2, 1. -/
def decrypt (rk : KeySchedule) (sInv pInv : Table) (c : Block) : Block :=
  let s := substitute (keyMix c rk[4]) sInv
  keyMix ([rk[3], rk[2], rk[1]].foldl (fun s k => substitute (permute (keyMix s k) pInv) sInv) s) rk[0]

/-- ENC (R141): `STATE <- Encrypt(STATE)`. -/
def execEnc (s : State) : Host.Outcome State Fault Refusal :=
  endCommand (encode .enc) s ((configured s).map fun _ => s.setState (encrypt s.rk s.sAct s.pAct s.state))

/-- DEC (R143): `STATE <- Decrypt(STATE)`. It reads `SI_ACT` and `PI_ACT`, as R142 and the operands of R143 say, and not
`S_ACT`, which 10_state.md R29 lists for DEC too (DEDUCED; assumption log, entry 17). -/
def execDec (s : State) : Host.Outcome State Fault Refusal :=
  endCommand (encode .dec) s ((configured s).map fun _ => s.setState (decrypt s.rk s.siAct s.piAct s.state))

end Sys2Proof.Machine
end

