-- ==== Sys2Proof/Machine/Control.lean ====
section
/-! DEFINITION. Sys2Proof/Machine/Control.lean: NOP, LDST, WRRK and CLRERR (44_keys_and_control.md). -/

namespace Sys2Proof.Machine

/-- NOP (R164): no effect. -/
def execNop (s : State) : Host.Outcome State Fault Refusal := endCommand (encode .nop) s (.ok s)

/-- LDST (R163): `STATE <- blk(DIN)`. -/
def execLdst (s : State) : Host.Outcome State Fault Refusal :=
  endCommand (encode .ldst) s ((blk s).map fun v => s.setState v)

/-- WRRK i (R161): `RK[i] <- blk(DIN)`. The index is checked first (R188). -/
def execWrrk (i : Nibble) (s : State) : Host.Outcome State Fault Refusal :=
  endCommand (encode (.wrrk i)) s ((keyIndex i).bind fun k => (blk s).map fun v => s.setRk k v)

/-- CLRERR (R165): the error record is cleared; `CFG_VALID` is not touched. -/
def execClrerr (s : State) : Host.Outcome State Fault Refusal := endCommand (encode .clrerr) s (.ok s.clearErrors)

end Sys2Proof.Machine
end

