-- ==== Sys2Proof/Machine/Primitives.lean ====
section
/-! DEFINITION. Sys2Proof/Machine/Primitives.lean: SUB, SUBI, PERM, PERMI, KMIX and KMIXD (42_round_primitives.md). -/

namespace Sys2Proof.Machine

/-- SUB (R123): `STATE <- Substitute(STATE, S_ACT)`. -/
def execSub (s : State) : Host.Outcome State Fault Refusal :=
  endCommand (encode .sub) s ((configured s).map fun _ => s.setState (substitute s.state s.sAct))

/-- SUBI (R124): `STATE <- Substitute(STATE, SI_ACT)`. -/
def execSubi (s : State) : Host.Outcome State Fault Refusal :=
  endCommand (encode .subi) s ((configured s).map fun _ => s.setState (substitute s.state s.siAct))

/-- PERM (R125): `STATE <- Permute(STATE, P_ACT)`. -/
def execPerm (s : State) : Host.Outcome State Fault Refusal :=
  endCommand (encode .perm) s ((configured s).map fun _ => s.setState (permute s.state s.pAct))

/-- PERMI (R126): `STATE <- Permute(STATE, PI_ACT)`. -/
def execPermi (s : State) : Host.Outcome State Fault Refusal :=
  endCommand (encode .permi) s ((configured s).map fun _ => s.setState (permute s.state s.piAct))

/-- KMIX i (R127): `STATE <- KeyMix(STATE, RK[i])`. It reads no table, so `CFG_VALID` does not matter. -/
def execKmix (i : Nibble) (s : State) : Host.Outcome State Fault Refusal :=
  endCommand (encode (.kmix i)) s ((keyIndex i).map fun k => s.setState (keyMix s.state s.rk[k]))

/-- KMIXD (R128): `STATE <- KeyMix(STATE, blk(DIN))`. -/
def execKmixd (s : State) : Host.Outcome State Fault Refusal :=
  endCommand (encode .kmixd) s ((blk s).map fun k => s.setState (keyMix s.state k))

end Sys2Proof.Machine
end

