-- ==== Sys2Proof/Machine/Tables.lean ====
section
/-! DEFINITION. Sys2Proof/Machine/Tables.lean: WRS, WRSI, WRP and COMMIT (41_config_tables.md). -/

namespace Sys2Proof.Machine

/-- WRS n (R101): `S_STG[n] <- ent(DIN)`. -/
def execWrs (n : Nibble) (s : State) : Host.Outcome State Fault Refusal :=
  endCommand (encode (.wrs n)) s ((ent s).map fun v => s.setSStg n v)

/-- WRSI n (R102): `SI_STG[n] <- ent(DIN)`. -/
def execWrsi (n : Nibble) (s : State) : Host.Outcome State Fault Refusal :=
  endCommand (encode (.wrsi n)) s ((ent s).map fun v => s.setSiStg n v)

/-- WRP n (R103): `P_STG[n] <- ent(DIN)`. -/
def execWrp (n : Nibble) (s : State) : Host.Outcome State Fault Refusal :=
  endCommand (encode (.wrp n)) s ((ent s).map fun v => s.setPStg n v)

/-- COMMIT (R104): activate the staging tables if they are valid (R106); else clear `CFG_VALID` and raise
`InvalidMapping` (R107). It is the one command whose error changes more than the error record (R183). -/
def execCommit (s : State) : Host.Outcome State Fault Refusal :=
  if valid s.sStg s.siStg s.pStg then endCommand (encode .commit) s (.ok s.activate)
  else endCommand (encode .commit) s.invalidate (.error .invalidMapping)

end Sys2Proof.Machine
end

