-- ==== Sys2Proof/Machine/Dispatch.lean ====
section
/-! DEFINITION. Sys2Proof/Machine/Dispatch.lean: which meaning each command has, one arm per constructor. -/

namespace Sys2Proof.Machine

def exec (i : Instr) (s : State) : Host.Outcome State Fault Refusal :=
  match i with
  | .nop => Sys2Proof.Machine.execNop s
  | .ldst => Sys2Proof.Machine.execLdst s
  | .wrrk k => Sys2Proof.Machine.execWrrk k s
  | .wrs n => Sys2Proof.Machine.execWrs n s
  | .wrsi n => Sys2Proof.Machine.execWrsi n s
  | .wrp n => Sys2Proof.Machine.execWrp n s
  | .commit => Sys2Proof.Machine.execCommit s
  | .clrerr => Sys2Proof.Machine.execClrerr s
  | .sub => Sys2Proof.Machine.execSub s
  | .subi => Sys2Proof.Machine.execSubi s
  | .perm => Sys2Proof.Machine.execPerm s
  | .permi => Sys2Proof.Machine.execPermi s
  | .kmix k => Sys2Proof.Machine.execKmix k s
  | .kmixd => Sys2Proof.Machine.execKmixd s
  | .enc => Sys2Proof.Machine.execEnc s
  | .dec => Sys2Proof.Machine.execDec s

end Sys2Proof.Machine
end

