-- ==== Sys2Proof/Machine/Port.lean ====
section
/-! DEFINITION. Sys2Proof/Machine/Port.lean: the host's port: the register window, issuing a command, and serving one event
(10_state.md R37; 20_memory.md R50 to R58; 30_encoding.md R70; 70_reset_and_hazards.md R210, R212). -/

namespace Sys2Proof.Machine

/-- Offset of `CTRL` (R37). -/
def ctrlOffset : Nat := 0x00
/-- Offset of `STATUS` (R37). -/
def statusOffset : Nat := 0x04
/-- Offset of `DIN` (R37). -/
def dinOffset : Nat := 0x08
/-- Offset of `CMD` (R37). -/
def cmdOffset : Nat := 0x0C
/-- Offset of `STATE` (R37). -/
def stateOffset : Nat := 0x10
/-- Offset of `ERRCMD` (R37). -/
def errcmdOffset : Nat := 0x14

/-- The window offset of a bus address, for a block placed at `base` (`BASE`, R8, R37): none for an address of something
else on the bus. -/
def windowOffset (base addr : Nat) : Option Nat :=
  if base ≤ addr ∧ addr < base + Config.windowSize then some (addr - base) else none

/-- The value a host read returns (R53). Round keys and tables are not in the window (R37); CMD and the reserved offsets
read as 0. -/
def readReg (s : State) (off : Nat) : Word :=
  if off = ctrlOffset then s.ctrlWord
  else if off = statusOffset then s.statusWord
  else if off = dinOffset then s.din
  else if off = stateOffset then s.state.setWidth 32
  else if off = errcmdOffset then s.errcmd
  else 0

/-- The effect of a host write anywhere but at CMD (R54): read-only and reserved offsets discard it. -/
def writeReg (s : State) (off : Nat) (v : Word) : State :=
  if off = ctrlOffset then s.writeCtrl v else if off = dinOffset then s.writeDin v else s

/-- Issue the command whose word is `w` (R70): run it if it is legal, else raise `IllegalCommand` (R184) and nothing
else about it is checked (R188). -/
def issue (w : Word) (s : State) : Host.Outcome State Fault Refusal :=
  match decode w with
  | .ok i => exec i s
  | .error _ => .next (s.raiseError .illegalCommand w)

/-- A write completes when what it started has completed (R58). -/
def completeWrite (o : Host.Outcome State Fault Refusal) : Host.Outcome State Fault Refusal :=
  match o with
  | .next t => .next (t.respond .completion)
  | .fault f => .fault f
  | .refused r => .refused r

/-- Only a 32-bit access at a multiple of 4 in 0x00..0xFC has a step (R51). -/
def guardAccess (a : Access) (o : Host.Outcome State Fault Refusal) : Host.Outcome State Fault Refusal :=
  if Config.windowSize ≤ a.offset then .fault .outsideWindow
  else if a.bytes = 4 ∧ a.offset % 4 = 0 then o
  else .refused .busNarrow

/-- An admitted host write (R54). -/
def serveWrite (off : Nat) (v : Word) (s : State) : Host.Outcome State Fault Refusal :=
  if off = cmdOffset then completeWrite (issue v s) else completeWrite (.next (writeReg s off v))

/-- Serve one event the port has accepted. A read changes no register, table or flag (R53). A command that reset cuts short
leaves the reset state, however far it had gone (R212). An access that runs into the window from below has no step (R51;
assumption log, entry 2). -/
def serve (e : PortEvent) (s : State) : Host.Outcome State Fault Refusal :=
  match e with
  | .read a => guardAccess a (.next (s.respond (.value (readReg s a.offset))))
  | .write a v => guardAccess a (serveWrite a.offset v s)
  | .straddle _ _ => .refused .busNarrow
  | .reset => .next s.resetBlock
  | .resetDuring _ => .next s.resetBlock.respondCutShort

end Sys2Proof.Machine
end

