-- ==== Sys2Proof/Machine/Step.lean ====
section
/-! DEFINITION. Sys2Proof/Machine/Step.lean: one step of the machine, one host transaction or reset (20_memory.md R58;
70_reset_and_hazards.md R214), and where a command comes from. -/

namespace Sys2Proof.Machine

/-- One step: the port serves the oldest waiting event. With none waiting the block idles and nothing changes, because it
does nothing unless the host asks (10_state.md R20). -/
def step (s : State) : Host.Outcome State Fault Refusal :=
  match s.pending with
  | [] => .next s
  | e :: rest => serve e (s.accept rest)

/-- `s` with a host write of the command word to CMD as the next transaction: the block fetches nothing, and a CMD write is
the only way to a command (30_encoding.md R70; assumption log, entry 3). -/
def State.withFetchWord (s : State) (nbits w : Nat) : State :=
  { s with pending := .write ⟨cmdOffset, 4⟩ (BitVec.ofNat 32 (w % 2 ^ nbits)) :: s.pending }

end Sys2Proof.Machine
end

