-- ==== Sys2Proof/Machine/HostProgram.lean ====
section
/-! DEFINITION. Sys2Proof/Machine/HostProgram.lean: the host's side: transactions, programs and what they observe, several
masters on one bus, and the key material (20_memory.md R59; 44_keys_and_control.md R162; 70_reset_and_hazards.md R218). -/

namespace Sys2Proof.Machine

/-- `BusRead(off)`: one 32-bit host read (R11). -/
def busRead (off : Nat) : PortEvent := .read ⟨off, 4⟩

/-- `BusWrite(off, v)`: one 32-bit host write (R11). -/
def busWrite (off : Nat) (v : Word) : PortEvent := .write ⟨off, 4⟩ v

/-- The transaction that issues a command (R70). -/
def busCommand (i : Instr) : PortEvent := busWrite cmdOffset (encode i)

/-- An event the port has a step for: reset, or an access rule R51 admits. -/
def PortEvent.admitted : PortEvent → Bool
  | .read a => decide (a.offset < Config.windowSize ∧ a.bytes = 4 ∧ a.offset % 4 = 0)
  | .write a _ => decide (a.offset < Config.windowSize ∧ a.bytes = 4 ∧ a.offset % 4 = 0)
  | .straddle _ _ => false
  | .reset => true
  | .resetDuring _ => true

/-- The host hands the port a program, to be accepted after what already waits (R218). -/
def State.load (s : State) (p : List PortEvent) : State := { s with pending := s.pending ++ p }

/-- `k` steps, stopping at the first that answers no next state: `Host.Core.run` on this machine's own state type
(`Sys2Proof.Machine.runSteps_eq_core_run`). -/
def runSteps : Nat → State → Host.Outcome State Fault Refusal
  | 0, s => .next s
  | k + 1, s =>
    match step s with
    | .next t => runSteps k t
    | .fault f => .fault f
    | .refused r => .refused r

/-- The values that reads returned, out of what the port answered (R218). -/
def observed : List Response → List Word
  | [] => []
  | .value v :: rs => v :: observed rs
  | .completion :: rs => observed rs
  | .cutShort _ :: rs => observed rs

/-- A run, and what follows it where it ends in a next state. -/
def andThen {α β : Type} (o : Host.Outcome α Fault Refusal) (f : α → Host.Outcome β Fault Refusal) :
    Host.Outcome β Fault Refusal :=
  match o with
  | .next s => f s
  | .fault x => .fault x
  | .refused x => .refused x

/-- Everything that already waits at the port is served, one step an event (R58). -/
def runWaiting (s : State) : Host.Outcome State Fault Refusal := runSteps s.pending.length s

/-- A transaction of a host program (R218): an admitted read or write. Reset is the host's to ask for, but no transaction
(R219). -/
def PortEvent.isTransaction (e : PortEvent) : Bool :=
  match e with
  | .read _ => e.admitted
  | .write _ _ => e.admitted
  | .straddle _ _ => false
  | .reset => false
  | .resetDuring _ => false

/-- The events that are reads. -/
def PortEvent.isRead (e : PortEvent) : Bool :=
  match e with
  | .read _ => true
  | .write _ _ => false
  | .straddle _ _ => false
  | .reset => false
  | .resetDuring _ => false

/-- A host program: a finite sequence of admitted transactions (R218). -/
def isHostProgram (p : List PortEvent) : Bool := p.all PortEvent.isTransaction

/-- The program `p` from `s` to its end (R218): what already waits is served first, since the port accepted it before (R58);
then `p`, until its last event has been served. -/
def runProgram (p : List PortEvent) (s : State) : Host.Outcome State Fault Refusal :=
  andThen (runWaiting s) fun u => runSteps p.length (u.load p)

/-- The observation of a host program (R218). -/
structure Observation where
  /-- The values its reads returned, first to last. -/
  values : List Word
  /-- The state after its last transaction. -/
  final : State
deriving DecidableEq, Repr

/-- What the program `p` observes from `s` (R218): the values that its own reads returned, and no value read before it began,
with the state at its end. -/
def observe (p : List PortEvent) (s : State) : Host.Outcome Observation Fault Refusal :=
  andThen (runWaiting s) fun u =>
    andThen (runSteps p.length (u.load p)) fun t => .next ⟨observed (t.responses.drop u.responses.length), t⟩

/-- `MASTER_INTERLEAVE` (R8, R59) as a relation: `merged` takes one whole transaction after another from the masters' queues
and keeps each master's own order, until every queue is empty. -/
def interleaves (queues : List (List PortEvent)) : List PortEvent → Bool
  | [] => queues.all List.isEmpty
  | e :: merged => (List.range queues.length).any fun m =>
      match queues[m]? with
      | some (x :: rest) => decide (x = e) && interleaves (queues.set m rest) merged
      | _ => false

/-- What happens on a bus that may hold several blocks, each with its own `BASE` (R8, R197). -/
inductive BusEvent where
  /-- A host read of `bytes` bytes from bus address `addr` on. -/
  | read (addr bytes : Nat)
  /-- A host write of `v`, over `bytes` bytes from bus address `addr` on. -/
  | write (addr bytes : Nat) (v : Word)
  /-- The reset input of the block at `base` is asserted and released. R210 gives each block one reset input and no rule says
  how a platform wires the inputs of several blocks: a reset event names its block, and a line that reaches several
  blocks is one event for each (DESIGN CHOICE; assumption log, entry 16). -/
  | reset (base : Nat)
  /-- The host wrote command `w` to CMD of the block at `base`, and that block's reset input is asserted while the command
  executes (R212). It names its block for the same reason (DESIGN CHOICE; assumption log, entry 16). -/
  | resetDuring (base : Nat) (w : Word)
deriving DecidableEq, Repr

/-- What the block at `base` gets of an access to `bytes` bytes from bus address `addr` on: the access at its offset where
it starts in the window; an access without a step where it starts below and runs into the window (R51 admits neither a
misaligned access nor a burst; DEDUCED, assumption log, entry 2); nothing where it touches no byte of the window. -/
def accessAtBlock (base addr bytes : Nat) (inside : Access → PortEvent) : Option PortEvent :=
  match windowOffset base addr with
  | some off => some (inside ⟨off, bytes⟩)
  | none => if addr < base ∧ base < addr + bytes then some (.straddle (base - addr) bytes) else none

/-- What the block at `base` gets of one bus event (R8, R37, R57, R197). -/
def BusEvent.toPort (base : Nat) : BusEvent → Option PortEvent
  | .read addr bytes => accessAtBlock base addr bytes .read
  | .write addr bytes v => accessAtBlock base addr bytes fun a => .write a v
  | .reset b => if b = base then some .reset else none
  | .resetDuring b w => if b = base then some (.resetDuring w) else none

/-- What reaches the block at `base` of what happens on the bus, in the bus's order (R8, R37, R57). -/
def atBlock (base : Nat) (bus : List BusEvent) : List PortEvent := bus.filterMap (BusEvent.toPort base)

/-- The 80-bit number a string of 20 hexadecimal digits denotes, `d[0]` most significant (R162). -/
def materialOfDigits (d : Vector Nibble 20) : BitVec 80 :=
  d.toList.foldl (fun m x => (m <<< 4) ||| x.setWidth 80) 0

/-- `keys[i] = M[79-16i : 64-16i]` (R162). -/
def keySlice (m : BitVec 80) (i : Nat) : Block := m.extractLsb' (64 - 16 * i) 16

end Sys2Proof.Machine
end

