-- ==== Sys2Proof/Machine/Assembler.lean ====
section
/-! DEFINITION. Sys2Proof/Machine/Assembler.lean: the host program syntax and its pseudo-instructions (30_encoding.md R77,
R78). It is notation only (92_eei_decisions.md D27): every statement stands for host transactions. -/

namespace Sys2Proof.Machine

/-- One statement of a host program: the four of R77, with the mnemonic forms as `command`, and the pseudo-instructions of
R78. -/
inductive Stmt where
  | wr (off : Nat) (v : Word)
  | rd (off : Nat)
  | command (i : Instr)
  | din (v : Word)
  | ldst (v : Word)
  | wrrk (i : Nibble) (v : Word)
  | ldkeys (k : Vector Word 5)
  | ldkey80 (m : BitVec 80)
  | ldsbox (t : Vector Word 16)
  | ldsinv (t : Vector Word 16)
  | ldpbox (t : Vector Word 16)
  | encrypt (v : Word)
  | decrypt (v : Word)
deriving DecidableEq, Repr

/-- `wr DIN, V` and then a command. -/
def withDin (v : Word) (i : Instr) : List PortEvent := [busWrite dinOffset v, busCommand i]

/-- For n = 0..15: `wr DIN, Tn` and then the table write of entry `n` (R78). -/
def loadTable (f : Nibble → Instr) (t : Vector Word 16) : List PortEvent :=
  nibbles.flatMap fun n => withDin (t[n.toNat]'n.isLt) (f n)

/-- `wrrk 0, K0` to `wrrk 4, K4` (R78). -/
def loadKeys (k : Vector Word 5) : List PortEvent :=
  withDin k[0] (.wrrk 0) ++ withDin k[1] (.wrrk 1) ++ withDin k[2] (.wrrk 2) ++ withDin k[3] (.wrrk 3)
    ++ withDin k[4] (.wrrk 4)

/-- `ldkey80 M` (R78, R162): the five slices of the key material, first slice to `RK[0]`. -/
def loadKey80 (m : BitVec 80) : List PortEvent :=
  loadKeys #v[(keySlice m 0).setWidth 32, (keySlice m 1).setWidth 32, (keySlice m 2).setWidth 32,
    (keySlice m 3).setWidth 32, (keySlice m 4).setWidth 32]

/-- The transactions a statement stands for (R77, R78). -/
def Stmt.expand : Stmt → List PortEvent
  | .wr off v => [busWrite off v]
  | .rd off => [busRead off]
  | .command i => [busCommand i]
  | .din v => [busWrite dinOffset v]
  | .ldst v => withDin v .ldst
  | .wrrk i v => withDin v (.wrrk i)
  | .ldkeys k => loadKeys k
  | .ldkey80 m => loadKey80 m
  | .ldsbox t => loadTable .wrs t
  | .ldsinv t => loadTable .wrsi t
  | .ldpbox t => loadTable .wrp t
  | .encrypt v => withDin v .ldst ++ [busCommand .enc, busRead stateOffset]
  | .decrypt v => withDin v .ldst ++ [busCommand .dec, busRead stateOffset]

/-- The transactions of a program, in order. -/
def assemble (p : List Stmt) : List PortEvent := p.flatMap Stmt.expand

/-- The value of one digit in base 16, either case. -/
def digitValue (c : Char) : Option Nat :=
  if '0' ≤ c ∧ c ≤ '9' then some (c.toNat - '0'.toNat)
  else if 'a' ≤ c ∧ c ≤ 'f' then some (c.toNat - 'a'.toNat + 10)
  else if 'A' ≤ c ∧ c ≤ 'F' then some (c.toNat - 'A'.toNat + 10)
  else none

/-- Digits in a base, most significant first (R10). -/
def digitsValue (base : Nat) (cs : List Char) : Option Nat :=
  cs.foldl (fun acc c => acc.bind fun n => (digitValue c).bind fun d =>
    if d < base then some (n * base + d) else none) (some 0)

/-- A decimal or `0x` hexadecimal number below `bound` (R77). -/
def parseNumber (bound : Nat) (t : List Char) : Option Nat :=
  (match t with
    | [] => none
    | ['0', 'x'] => none
    | '0' :: 'x' :: ds => digitsValue 16 ds
    | ds => digitsValue 10 ds).bind fun n => if n < bound then some n else none

/-- A 32-bit value (R77). -/
def parseWord (t : List Char) : Option Word := (parseNumber (2 ^ 32) t).map (BitVec.ofNat 32)

/-- An index 0..15 (R77). -/
def parseIndex (t : List Char) : Option Nibble := (parseNumber 16 t).map (BitVec.ofNat 4)

/-- A register offset, as a number or by name (R77). -/
def parseOffset (t : List Char) : Option Nat :=
  match String.ofList t with
  | "CTRL" => some ctrlOffset
  | "STATUS" => some statusOffset
  | "DIN" => some dinOffset
  | "CMD" => some cmdOffset
  | "STATE" => some stateOffset
  | "ERRCMD" => some errcmdOffset
  | _ => parseNumber Config.windowSize t

/-- A list of exactly `k` values. -/
def parseWords (k : Nat) (ts : List (List Char)) : Option (Vector Word k) :=
  (ts.mapM parseWord).bind fun vs => if h : vs.length = k then some ⟨vs.toArray, by simpa using h⟩ else none

/-- The command of an index-free mnemonic (R73, R77). -/
def bareCommand (m : String) : Option Instr :=
  match m with
  | "nop" => some .nop
  | "ldst" => some .ldst
  | "commit" => some .commit
  | "clrerr" => some .clrerr
  | "sub" => some .sub
  | "subi" => some .subi
  | "perm" => some .perm
  | "permi" => some .permi
  | "kmixd" => some .kmixd
  | "enc" => some .enc
  | "dec" => some .dec
  | _ => none

/-- The command of a mnemonic with an index (R73, R77). -/
def indexedCommand (m : String) (i : Nibble) : Option Instr :=
  match m with
  | "wrrk" => some (.wrrk i)
  | "wrs" => some (.wrs i)
  | "wrsi" => some (.wrsi i)
  | "wrp" => some (.wrp i)
  | "kmix" => some (.kmix i)
  | _ => none

/-- The words of a line: `;` starts a comment (R77); blanks and commas separate. -/
def lineWords (line : String) : List (List Char) :=
  ((line.toList.takeWhile (· ≠ ';')).splitOnP fun c => c == ' ' || c == '\t' || c == ',').filter (· ≠ [])

/-- One line of a host program (R77, R78): `some none` for a line with no statement, `none` for a line that is not one.
Mnemonics are case-insensitive. -/
def parseLine (line : String) : Option (Option Stmt) :=
  match lineWords line with
  | [] => some none
  | m :: args =>
    (match String.ofList (m.map Char.toLower), args with
      | "wr", [o, v] => (parseOffset o).bind fun off => (parseWord v).map (Stmt.wr off)
      | "rd", [o] => (parseOffset o).map Stmt.rd
      | "din", [v] => (parseWord v).map Stmt.din
      | "ldst", [v] => (parseWord v).map Stmt.ldst
      | "wrrk", [i, v] => (parseIndex i).bind fun k => (parseWord v).map (Stmt.wrrk k)
      | "ldkeys", ks => (parseWords 5 ks).map Stmt.ldkeys
      | "ldkey80", [k] => (parseNumber (2 ^ 80) k).map fun n => Stmt.ldkey80 (BitVec.ofNat 80 n)
      | "ldsbox", ts => (parseWords 16 ts).map Stmt.ldsbox
      | "ldsinv", ts => (parseWords 16 ts).map Stmt.ldsinv
      | "ldpbox", ts => (parseWords 16 ts).map Stmt.ldpbox
      | "encrypt", [v] => (parseWord v).map Stmt.encrypt
      | "decrypt", [v] => (parseWord v).map Stmt.decrypt
      | n, [] => (bareCommand n).map Stmt.command
      | n, [i] => (parseIndex i).bind fun k => (indexedCommand n k).map Stmt.command
      | _, _ => none).map some

end Sys2Proof.Machine
end

