-- ==== Sys2Proof/Safety.lean ====
section
/-! DEFINITION. Sys2Proof/Safety.lean: what holds of every state a run can reach, and what a run must not do. -/

namespace Sys2Proof.Machine

/-- The invariant of the active tables (10_state.md R31), in the rule's own four clauses. -/
def State.tablesInv (s : State) : Prop :=
  (∀ v, ∃! x, lookup s.sAct x = v) ∧
  (∀ x, lookup s.siAct (lookup s.sAct x) = x) ∧
  (∀ v, ∃! i, lookup s.pAct i = v) ∧
  (∀ i, lookup s.piAct (lookup s.pAct i) = i)

/-- The error record is coherent: `LASTERR` is 0 exactly when no error bit is set, and then `ERRCMD` is 0 too; otherwise it
is the code of an error kind whose bit is set, so that the reserved codes 5..15 never occur (60_exceptions.md R181, R183;
10_state.md R24, R26). -/
def State.errorsInv (s : State) : Prop :=
  if s.lasterr = 0 then s.anyError = false ∧ s.errcmd = 0
  else ∃ e : ErrorKind, s.lasterr = e.code ∧ s.errorBit e = true

/-- The invariant every step keeps. -/
def State.Inv (s : State) : Prop := s.tablesInv ∧ s.errorsInv

/-- Every event that waits at the port is one the block has a step for (20_memory.md R51). -/
def State.portOk (s : State) : Prop := ∀ e ∈ s.pending, e.admitted = true

/-- The commands run one after another, each from the state the one before it left (70_reset_and_hazards.md R214). -/
def execAll : List Instr → State → Host.Outcome State Fault Refusal
  | [], s => .next s
  | i :: is, s =>
    match exec i s with
    | .next t => execAll is t
    | .fault f => .fault f
    | .refused r => .refused r

end Sys2Proof.Machine

namespace Sys2Proof

/-- Which error a legal command can raise (60_exceptions.md R182, the columns after `IllegalCommand`). -/
def Instr.possibleError : Instr → Option Machine.ErrorKind
  | .nop => none
  | .ldst => some .invalidBlockSize
  | .wrrk _ => some .invalidBlockSize
  | .wrs _ => some .invalidMapping
  | .wrsi _ => some .invalidMapping
  | .wrp _ => some .invalidMapping
  | .commit => some .invalidMapping
  | .clrerr => none
  | .sub => some .notConfigured
  | .subi => some .notConfigured
  | .perm => some .notConfigured
  | .permi => some .notConfigured
  | .kmix _ => none
  | .kmixd => some .invalidBlockSize
  | .enc => some .notConfigured
  | .dec => some .notConfigured

end Sys2Proof
end

