-- ==== Sys2Proof/Certificates/Slice0/Obligations.lean ====
section
/-! DEFINITION. Sys2Proof/Certificates/Slice0/Obligations.lean: the statements about the SPN16 round processor. A state after
a command is written as the state before it with the changed fields named, so that each statement is a frame as well. -/

open Sys2Proof Sys2Proof.Machine

/-! ### Command words -/

/-- Every well-formed command is the one the decoder reads from its own word, with every index its encoding admits
(30_encoding.md sections 2 and 3). -/
def Obligations.DecodeOfEncodeIsIdentity : Prop :=
  ∀ i : Instr, i.wellFormed = true → decode (encode i) = .ok i

/-- A word that decodes is the word of the command it decodes to, and that command is well-formed: the word and the command
hold the same information, so that `ERRCMD` may be written from the command (30_encoding.md sections 2 and 3). -/
def Obligations.EncodeOfDecodeIsIdentity : Prop :=
  ∀ (w : Word) (i : Instr), decode w = .ok i → encode i = w ∧ i.wellFormed = true

/-- Rule R74: the decoder accepts exactly the words the rule's predicate calls legal; a word that is not legal raises
`IllegalCommand` and has no other effect. -/
def Obligations.DecoderAcceptsExactlyLegalWords : Prop :=
  (∀ w : Word,
    (∃ i, decode w = .ok i) ↔
      (w.extractLsb' 12 20 = 0 ∧
       ((w.extractLsb' 0 8).toNat ≤ 0x07 ∨
        (0x10 ≤ (w.extractLsb' 0 8).toNat ∧ (w.extractLsb' 0 8).toNat ≤ 0x15) ∨
        w.extractLsb' 0 8 = 0x20 ∨ w.extractLsb' 0 8 = 0x21) ∧
       (if w.extractLsb' 0 8 = 0x02 ∨ w.extractLsb' 0 8 = 0x14 then (w.extractLsb' 8 4).toNat ≤ 4
        else if w.extractLsb' 0 8 = 0x03 ∨ w.extractLsb' 0 8 = 0x04 ∨ w.extractLsb' 0 8 = 0x05 then True
        else w.extractLsb' 8 4 = 0))) ∧
  (∀ (w : Word) (s : State), (∀ i, decode w ≠ .ok i) →
    issue w s = .next { s with eCmd := true, lasterr := 3, errcmd := w })

/-- Rules R75 and R184: the illegal words, class by class, each raise `IllegalCommand` and change the error record only, and
every word outside these classes is a command, which runs and does not raise `IllegalCommand`: `E_CMD` keeps its value (but
for CLRERR, which only clears it), and `LASTERR` is 3 after it only where it was before, with the same `ERRCMD`. -/
def Obligations.ReservedWordsRaiseIllegalCommand : Prop :=
  ∀ (w : Word) (s : State),
    (if rsvOf w ≠ 0 ∨
        (0x08 ≤ (opcOf w).toNat ∧ (opcOf w).toNat ≤ 0x0F) ∨
        (0x16 ≤ (opcOf w).toNat ∧ (opcOf w).toNat ≤ 0x1F) ∨ 0x22 ≤ (opcOf w).toNat ∨
        ((opcOf w = 0x02 ∨ opcOf w = 0x14) ∧ 5 ≤ (idxOf w).toNat) ∨
        ((opcOf w ≠ 0x02 ∧ opcOf w ≠ 0x03 ∧ opcOf w ≠ 0x04 ∧ opcOf w ≠ 0x05 ∧ opcOf w ≠ 0x14) ∧ idxOf w ≠ 0)
      then issue w s = .next { s with eCmd := true, lasterr := 3, errcmd := w }
      else ∃ i t, decode w = .ok i ∧ issue w s = exec i s ∧ exec i s = .next t ∧
        (i ≠ .clrerr → t.eCmd = s.eCmd) ∧ (t.eCmd = true → s.eCmd = true) ∧
        (t.lasterr = 3 → s.lasterr = 3 ∧ t.errcmd = s.errcmd))

/-- Words written out from the encoding of 30_encoding.md section 3, one for each group, decode to their commands. -/
def Obligations.SampleWordsDecode : Prop :=
  decode 0b00000000000000000000_0000_00000000 = .ok .nop ∧
  decode 0b00000000000000000000_0100_00000010 = .ok (.wrrk 4) ∧
  decode 0b00000000000000000000_1111_00000011 = .ok (.wrs 15) ∧
  decode 0b00000000000000000000_0000_00010011 = .ok .permi ∧
  decode 0b00000000000000000000_0011_00010100 = .ok (.kmix 3) ∧
  decode 0b00000000000000000000_0000_00100001 = .ok .dec

/-! ### Steps of the port -/

/-- A CMD write whose word decodes runs that command, and the port then answers the write. -/
def Obligations.StepRunsDecodedCommand : Prop :=
  ∀ (s : State) (w : Word) (rest : List PortEvent) (i : Instr),
    s.pending = .write ⟨0x0C, 4⟩ w :: rest → decode w = .ok i →
    step s =
      match exec i { s with pending := rest } with
      | .next t => .next { t with responses := t.responses ++ [.completion] }
      | .fault f => .fault f
      | .refused r => .refused r

/-- A CMD write whose word is no command records `IllegalCommand` alone, whatever the word's opcode and whatever `CTRL`,
`DIN` and `CFG_VALID` hold (60_exceptions.md, priority), and the port goes on. -/
def Obligations.StepRecordsIllegalWord : Prop :=
  ∀ (s : State) (w : Word) (rest : List PortEvent) (e : DecodeError),
    s.pending = .write ⟨0x0C, 4⟩ w :: rest → decode w = .error e →
    step s = .next { s with
      pending := rest, responses := s.responses ++ [.completion], eCmd := true, lasterr := 3, errcmd := w }

/-- Rule R53: a read returns the value the table gives and leaves every register, table and flag unchanged. -/
def Obligations.ReadReturnsValueAndChangesNothing : Prop :=
  ∀ (s : State) (off : Nat) (rest : List PortEvent),
    s.pending = .read ⟨off, 4⟩ :: rest → off % 4 = 0 → off ≤ 0xFC →
    step s = .next { s with
      pending := rest
      responses := s.responses ++ [.value (
        if off = 0x00 then (BitVec.ofBool s.errie ++ BitVec.ofBool s.strict).setWidth 32
        else if off = 0x04 then
          (s.lasterr ++ BitVec.ofBool s.eCfg ++ BitVec.ofBool s.eCmd ++ BitVec.ofBool s.eBlk ++ BitVec.ofBool s.eMap
            ++ (0 : BitVec 3) ++ BitVec.ofBool s.cfgValid).setWidth 32
        else if off = 0x08 then s.din
        else if off = 0x0C then 0
        else if off = 0x10 then s.state.setWidth 32
        else if off = 0x14 then s.errcmd
        else 0)] }

/-- Rule R54: the effect of a write at each offset; read-only and reserved offsets discard it and raise no error. -/
def Obligations.WriteHasItsTableEffect : Prop :=
  ∀ (s : State) (off : Nat) (v : Word) (rest : List PortEvent),
    s.pending = .write ⟨off, 4⟩ v :: rest → off % 4 = 0 → off ≤ 0xFC →
    (if off = 0x00 then
      step s = .next { s with
        pending := rest, responses := s.responses ++ [.completion], strict := v.getLsbD 0, errie := v.getLsbD 1 }
    else if off = 0x08 then
      step s = .next { s with pending := rest, responses := s.responses ++ [.completion], din := v }
    else if off = 0x0C then
      ∃ t, issue v { s with pending := rest } = .next t ∧
        step s = .next { t with responses := t.responses ++ [.completion] }
    else
      step s = .next { s with pending := rest, responses := s.responses ++ [.completion] })

/-- Rule R51: only a 32-bit access at a multiple of 4 in 0x00..0xFC has a step. (An access that starts at no offset, but runs
into the window from below, is in `BusAccessTouchingTheWindowIsAdmittedOrStops`. That an access outside the window stops by
a fault and any other by a refusal is the model's choice, assumption log, entry 2; this statement does not rest on it.) -/
def Obligations.OnlyAlignedWordAccessesHaveAStep : Prop :=
  ∀ (s : State) (a : Access) (v : Word) (rest : List PortEvent),
    (s.pending = .read a :: rest ∨ s.pending = .write a v :: rest) →
    ((∃ t, step s = .next t) ↔ (a.bytes = 4 ∧ a.offset % 4 = 0 ∧ a.offset ≤ 0xFC))

/-- How an access without a step stops. The spec says only that there is no step (R51); which stop is which is the model's
choice (assumption log, entry 2): an offset beyond the window is a fault, any other inadmissible access, one that runs into
the window from below included, a refusal. -/
def Obligations.UnadmittedAccessStopsByName : Prop :=
  (∀ (s : State) (a : Access) (v : Word) (rest : List PortEvent),
    (s.pending = .read a :: rest ∨ s.pending = .write a v :: rest) →
    (0x100 ≤ a.offset → step s = .fault .outsideWindow) ∧
    (a.offset < 0x100 → (a.bytes ≠ 4 ∨ a.offset % 4 ≠ 0) → step s = .refused .busNarrow)) ∧
  (∀ (s : State) (below bytes : Nat) (rest : List PortEvent), s.pending = .straddle below bytes :: rest →
    step s = .refused .busNarrow)

/-- Rule R55: writing CTRL or DIN twice leaves the registers as writing it once does; two writes of the ENC word encrypt
`STATE` twice, which is not what one write does. -/
def Obligations.RegisterWritesIdempotentCommandsNot : Prop :=
  (∀ (s : State) (off : Nat) (v : Word), off = 0x00 ∨ off = 0x08 →
    ∃ u, step { s with pending := [busWrite off v] } = .next u ∧
      runSteps 2 { s with pending := [busWrite off v, busWrite off v] }
        = .next { u with responses := u.responses ++ [.completion] }) ∧
  (∀ s : State, s.cfgValid = true →
    runSteps 2 { s with pending := [busWrite 0x0C 0x20, busWrite 0x0C 0x20] }
      = .next { s with
          pending := [], responses := s.responses ++ [.completion, .completion]
          state := encrypt s.rk s.sAct s.pAct (encrypt s.rk s.sAct s.pAct s.state) }) ∧
  (∃ s : State, s.cfgValid = true ∧
    encrypt s.rk s.sAct s.pAct (encrypt s.rk s.sAct s.pAct s.state) ≠ encrypt s.rk s.sAct s.pAct s.state)

/-- With nothing waiting at the port, a step changes nothing (the model's reading of "the host issues": assumption log,
entry 3). -/
def Obligations.IdleBlockDoesNothing : Prop :=
  ∀ s : State, s.pending = [] → step s = .next s

/-- Reset gives every piece of the block's state its reset value, whatever it held, and no state of the block survives. That
`pending`, `responses` and `draws`, which are the host's side and not the block's, keep their values is the model's choice
(DESIGN CHOICE; assumption log, entry 9). -/
def Obligations.ResetDiscardsAllBlockState : Prop :=
  ∀ (s : State) (rest : List PortEvent), s.pending = .reset :: rest →
    step s = .next { State.reset with pending := rest, responses := s.responses, draws := s.draws }

/-- A command that reset cuts short leaves the reset state, however far it had gone, whichever command it was. That its
transaction is answered, with one 32-bit value `cutShort` that nothing constrains and that `draws` counts, is the model's
choice (DESIGN CHOICE; assumption log, entry 4; the spec says "whatever response the platform gives"), and so is that
`pending` and the earlier `responses` are kept (entry 9). -/
def Obligations.ResetDuringCommandAbandonsIt : Prop :=
  ∀ (s : State) (w : Word) (rest : List PortEvent), s.pending = .resetDuring w :: rest →
    ∃ v : Word, step s = .next { State.reset with
      pending := rest, responses := s.responses ++ [.cutShort v], draws := s.draws + 1 }

/-! ### Reset values and invariants -/

/-- Rule R36: the reset value of every piece of state. -/
def Obligations.ResetValuesAreTheTables : Prop :=
  State.reset.state = 0x0000 ∧ State.reset.din = 0x00000000 ∧
  (∀ i (h : i < 5), State.reset.rk[i] = 0x0000) ∧
  State.reset.strict = false ∧ State.reset.errie = false ∧ State.reset.cfgValid = true ∧
  State.reset.eMap = false ∧ State.reset.eBlk = false ∧ State.reset.eCmd = false ∧ State.reset.eCfg = false ∧
  State.reset.lasterr = 0 ∧ State.reset.errcmd = 0x00000000 ∧
  (State.reset.sStg.toList = [0xE, 0x4, 0xD, 0x1, 0x2, 0xF, 0xB, 0x8, 0x3, 0xA, 0x6, 0xC, 0x5, 0x9, 0x0, 0x7] ∧
    State.reset.sAct = State.reset.sStg) ∧
  (State.reset.siStg.toList = [0xE, 0x3, 0x4, 0x8, 0x1, 0xC, 0xA, 0xF, 0x7, 0xD, 0x9, 0x6, 0xB, 0x2, 0x0, 0x5] ∧
    State.reset.siAct = State.reset.siStg) ∧
  (State.reset.pStg.toList = [0x0, 0x4, 0x8, 0xC, 0x1, 0x5, 0x9, 0xD, 0x2, 0x6, 0xA, 0xE, 0x3, 0x7, 0xB, 0xF] ∧
    State.reset.pAct = State.reset.pStg ∧ State.reset.piAct = State.reset.pStg) ∧
  State.reset.errIrq = false

/-- The reset state has the invariant of the active tables and a coherent error record. -/
def Obligations.ResetHasTheInvariant : Prop := State.reset.Inv

/-- Rule R31: the reset tables are mutually inverse bijections, and every step, whatever the port event, keeps the active
tables so. -/
def Obligations.EveryStepKeepsActiveTablesInverse : Prop :=
  State.reset.tablesInv ∧
  ∀ s t : State, s.tablesInv → step s = .next t → t.tablesInv

/-- Every step keeps the error record coherent: `LASTERR` is a code 0..4 whose bit is set, and it is 0 exactly when no
error bit is set. -/
def Obligations.EveryStepKeepsErrorRecordCoherent : Prop :=
  ∀ s t : State, s.errorsInv → step s = .next t → t.errorsInv

/-! ### What each command does -/

/-- Rule R164: NOP is the word 0x00000000, changes nothing, and any other word with `OPC` = 0x00 is illegal. -/
def Obligations.NopHasNoEffect : Prop :=
  encode .nop = 0x00000000 ∧ decode 0x00000000 = .ok .nop ∧
  (∀ s : State, exec .nop s = .next s) ∧
  (∀ w : Word, opcOf w = 0x00 → (idxOf w ≠ 0 ∨ rsvOf w ≠ 0) → ∃ e, decode w = .error e)

/-- Rule R165: CLRERR clears the whole error record and `err_irq`, leaves everything else, `CFG_VALID` included, and
changes nothing where no error is recorded. -/
def Obligations.ClrerrClearsErrorRecord : Prop :=
  encode .clrerr = 0x00000007 ∧
  ∀ s : State, ∃ t,
    exec .clrerr s = .next t ∧
    t = { s with eMap := false, eBlk := false, eCmd := false, eCfg := false, lasterr := 0, errcmd := 0x00000000 } ∧
    t.errIrq = false ∧ (s.errorsInv → s.anyError = false → t = s)

/-- LDST loads `DIN[15:0]` where the operand passes the block-size check, and otherwise records `InvalidBlockSize` and
leaves `STATE`. -/
def Obligations.LdstLoadsState : Prop :=
  ∀ s : State,
    ((s.strict = false ∨ s.din.extractLsb' 16 16 = 0) →
      exec .ldst s = .next { s with state := s.din.extractLsb' 0 16 }) ∧
    (s.strict = true → s.din.extractLsb' 16 16 ≠ 0 →
      exec .ldst s = .next { s with eBlk := true, lasterr := 2, errcmd := 0x00000001 })

/-- WRRK i writes `DIN[15:0]` to `RK[i]` and no other key, for every key number 0..4, where the operand passes the
block-size check; otherwise it records `InvalidBlockSize` and leaves `RK`. -/
def Obligations.WrrkWritesOneRoundKey : Prop :=
  ∀ (s : State) (i : Nibble) (h : i.toNat < 5),
    ((s.strict = false ∨ s.din.extractLsb' 16 16 = 0) →
      exec (.wrrk i) s = .next { s with rk := s.rk.set i.toNat (s.din.extractLsb' 0 16) h }) ∧
    (s.strict = true → s.din.extractLsb' 16 16 ≠ 0 →
      exec (.wrrk i) s = .next { s with eBlk := true, lasterr := 2, errcmd := (i ++ (0x02 : BitVec 8)).setWidth 32 })

/-- WRS, WRSI and WRP each write the low nibble of `DIN` to one entry of their own staging table, for every entry number, and
change nothing else, where `DIN` holds a nibble; `CFG_VALID` and `STRICT` do not matter. -/
def Obligations.StagingWriteStoresOneEntry : Prop :=
  ∀ (s : State) (n : Nibble), s.din.extractLsb' 4 28 = 0 →
    exec (.wrs n) s = .next { s with sStg := s.sStg.set n.toNat (s.din.extractLsb' 0 4) n.isLt } ∧
    exec (.wrsi n) s = .next { s with siStg := s.siStg.set n.toNat (s.din.extractLsb' 0 4) n.isLt } ∧
    exec (.wrp n) s = .next { s with pStg := s.pStg.set n.toNat (s.din.extractLsb' 0 4) n.isLt }

/-- The table-entry check at the three commands that apply it: a `DIN` outside 0..15 is never masked, whatever `STRICT` holds;
`InvalidMapping` is recorded and the entry keeps its value. -/
def Obligations.StagingWriteOutOfRangeRaisesInvalidMapping : Prop :=
  ∀ (s : State) (n : Nibble), s.din.extractLsb' 4 28 ≠ 0 →
    exec (.wrs n) s = .next { s with eMap := true, lasterr := 1, errcmd := (n ++ (0x03 : BitVec 8)).setWidth 32 } ∧
    exec (.wrsi n) s = .next { s with eMap := true, lasterr := 1, errcmd := (n ++ (0x04 : BitVec 8)).setWidth 32 } ∧
    exec (.wrp n) s = .next { s with eMap := true, lasterr := 1, errcmd := (n ++ (0x05 : BitVec 8)).setWidth 32 }

/-- Rule R105: which staging tables are valid; what validity gives: the inverse S-box is then a bijection too and inverts the
S-box on both sides; and any failure, whichever clause it breaks, is the same single error at COMMIT. -/
def Obligations.ValidTablesAreInverseBijections : Prop :=
  ∀ s si p : Table,
    (valid s si p = true ↔
      (∀ v, ∃! x, lookup s x = v) ∧ (∀ v, ∃! x, lookup p x = v) ∧ (∀ x, lookup si (lookup s x) = x)) ∧
    (valid s si p = true →
      (∀ v, ∃! x, lookup si x = v) ∧ ∀ y, lookup s (lookup si y) = y) ∧
    (valid s si p = false → ∀ u : State, u.sStg = s → u.siStg = si → u.pStg = p →
      exec .commit u = .next { u with cfgValid := false, eMap := true, lasterr := 1, errcmd := 0x00000006 })

/-- A COMMIT of valid staging tables activates all of them at once, derives the inverse P-box, and sets
`CFG_VALID`; the staging tables keep their values. Its tables are those every later SUB, SUBI, PERM, PERMI, ENC and DEC
uses. -/
def Obligations.CommitActivatesValidTables : Prop :=
  ∀ s : State, valid s.sStg s.siStg s.pStg = true →
    ∃ t, exec .commit s = .next t ∧
      t = { s with
        sAct := s.sStg, siAct := s.siStg, pAct := s.pStg, piAct := inverse s.pStg, cfgValid := true } ∧
      exec .sub t = .next { t with state := substitute s.state s.sStg } ∧
      exec .subi t = .next { t with state := substitute s.state s.siStg } ∧
      exec .perm t = .next { t with state := permute s.state s.pStg } ∧
      exec .permi t = .next { t with state := permute s.state (inverse s.pStg) } ∧
      exec .enc t = .next { t with state := encrypt s.rk s.sStg s.pStg s.state } ∧
      exec .dec t = .next { t with state := decrypt s.rk s.siStg (inverse s.pStg) s.state }

/-- Rule R107: a COMMIT of invalid staging tables keeps the active tables, clears `CFG_VALID` and raises `InvalidMapping`;
the table-using commands then raise `NotConfigured` and do nothing else. -/
def Obligations.CommitFailureBlocksTableCommands : Prop :=
  (∀ s : State, valid s.sStg s.siStg s.pStg = false →
    exec .commit s = .next { s with cfgValid := false, eMap := true, lasterr := 1, errcmd := 0x00000006 }) ∧
  (∀ (u : State) (i : Instr), u.cfgValid = false → i ∈ [Instr.sub, .subi, .perm, .permi, .enc, .dec] →
    exec i u = .next { u with eCfg := true, lasterr := 4, errcmd := encode i })

/-- SUB, SUBI, PERM and PERMI each transform `STATE` through their own active table, and change nothing else, while
`CFG_VALID` is 1. -/
def Obligations.TablePrimitivesTransformState : Prop :=
  ∀ s : State, s.cfgValid = true →
    exec .sub s = .next { s with state := substitute s.state s.sAct } ∧
    exec .subi s = .next { s with state := substitute s.state s.siAct } ∧
    exec .perm s = .next { s with state := permute s.state s.pAct } ∧
    exec .permi s = .next { s with state := permute s.state s.piAct }

/-- KMIX i exclusive-ors `RK[i]` into `STATE`, for every key number 0..4, whatever `CFG_VALID`, `STRICT` and `DIN` hold. -/
def Obligations.KmixMixesRoundKey : Prop :=
  ∀ (s : State) (i : Nibble) (h : i.toNat < 5),
    exec (.kmix i) s = .next { s with state := s.state ^^^ s.rk[i.toNat] }

/-- KMIXD exclusive-ors `DIN[15:0]` into `STATE` where the operand passes the block-size check, and otherwise records
`InvalidBlockSize` and leaves `STATE`. -/
def Obligations.KmixdMixesOperand : Prop :=
  ∀ s : State,
    ((s.strict = false ∨ s.din.extractLsb' 16 16 = 0) →
      exec .kmixd s = .next { s with state := s.state ^^^ s.din.extractLsb' 0 16 }) ∧
    (s.strict = true → s.din.extractLsb' 16 16 ≠ 0 →
      exec .kmixd s = .next { s with eBlk := true, lasterr := 2, errcmd := 0x00000015 })

/-- WRRK and KMIX with a key number 5..15 raise `IllegalCommand` and leave `RK` and `STATE`. For words at CMD this is the
spec's (R75); that `exec` itself raises the error when given such a command, which no word decodes to, is the model's reading
(DEDUCED; assumption log, entry 1: the spec lists the error among the command's own but raises it at decode). -/
def Obligations.KeyNumberAboveFourIsIllegal : Prop :=
  ∀ (s : State) (i : Nibble), 5 ≤ i.toNat →
    exec (.wrrk i) s = .next { s with eCmd := true, lasterr := 3, errcmd := encode (.wrrk i) } ∧
    exec (.kmix i) s = .next { s with eCmd := true, lasterr := 3, errcmd := encode (.kmix i) } ∧
    issue (encode (.wrrk i)) s = exec (.wrrk i) s ∧ issue (encode (.kmix i)) s = exec (.kmix i) s

/-- ENC runs the four rounds of the cipher on `STATE` (three with the permutation, the last without) and changes nothing
else, while `CFG_VALID` is 1. -/
def Obligations.EncRunsFourRounds : Prop :=
  ∀ s : State, s.cfgValid = true →
    let r1 := permute (substitute (s.state ^^^ s.rk[0]) s.sAct) s.pAct
    let r2 := permute (substitute (r1 ^^^ s.rk[1]) s.sAct) s.pAct
    let r3 := permute (substitute (r2 ^^^ s.rk[2]) s.sAct) s.pAct
    exec .enc s = .next { s with state := substitute (r3 ^^^ s.rk[3]) s.sAct ^^^ s.rk[4] }

/-- DEC runs the inverse rounds on `STATE`, with the inverse S-box and the derived inverse P-box, and changes nothing else,
while `CFG_VALID` is 1. -/
def Obligations.DecRunsInverseRounds : Prop :=
  ∀ s : State, s.cfgValid = true →
    let r4 := substitute (s.state ^^^ s.rk[4]) s.siAct
    let r3 := substitute (permute (r4 ^^^ s.rk[3]) s.piAct) s.siAct
    let r2 := substitute (permute (r3 ^^^ s.rk[2]) s.piAct) s.siAct
    let r1 := substitute (permute (r2 ^^^ s.rk[1]) s.piAct) s.siAct
    exec .dec s = .next { s with state := r1 ^^^ s.rk[0] }

/-! ### Errors and flags -/

/-- Rule R185: `InvalidBlockSize` is raised by LDST, WRRK and KMIXD when `STRICT` is 1 and `DIN[31:16]` is not 0, and with
`STRICT` 0 no command raises it. -/
def Obligations.BlockSizeErrorOnlyInStrictMode : Prop :=
  (∀ (s : State) (i : Nibble), s.strict = true → s.din.extractLsb' 16 16 ≠ 0 → i.toNat < 5 →
    exec .ldst s = .next { s with eBlk := true, lasterr := 2, errcmd := encode .ldst } ∧
    exec (.wrrk i) s = .next { s with eBlk := true, lasterr := 2, errcmd := encode (.wrrk i) } ∧
    exec .kmixd s = .next { s with eBlk := true, lasterr := 2, errcmd := encode .kmixd }) ∧
  (∀ (s t : State) (w : Word), s.strict = false → issue w s = .next t →
    (t.eBlk = true → s.eBlk = true) ∧ (t.lasterr = 2 → s.lasterr = 2))

/-- Rule R186: while `CFG_VALID` is 0 the six table-using commands raise `NotConfigured` and do nothing else; `CFG_VALID`
becomes 0 only by a COMMIT that fails, and 1 only by a COMMIT that passes or by reset. -/
def Obligations.NotConfiguredUntilCommitPasses : Prop :=
  (∀ s : State, s.cfgValid = false →
    ∀ i : Instr, i ∈ [Instr.sub, .subi, .perm, .permi, .enc, .dec] →
      exec i s = .next { s with eCfg := true, lasterr := 4, errcmd := encode i }) ∧
  (∀ s t : State, step s = .next t → s.cfgValid = true → t.cfgValid = false →
    s.pending.head? = some (.write ⟨0x0C, 4⟩ 0x00000006) ∧ valid s.sStg s.siStg s.pStg = false) ∧
  (∀ s t : State, step s = .next t → s.cfgValid = false → t.cfgValid = true →
    (s.pending.head? = some (.write ⟨0x0C, 4⟩ 0x00000006) ∧ valid s.sStg s.siStg s.pStg = true) ∨
    s.pending.head? = some .reset ∨ ∃ w, s.pending.head? = some (.resetDuring w))

/-- Rule R183, with the error each command can raise: a word at CMD either raises nothing and leaves the error record as it
was (CLRERR apart), or raises one error, and it can only be its own: that error's bit is set, `LASTERR` takes its code,
`ERRCMD` the word, and nothing else changes, but for the `CFG_VALID` that a failed COMMIT clears. -/
def Obligations.CommandRaisesOnlyItsOwnError : Prop :=
  ∀ (w : Word) (s t : State), issue w s = .next t →
    ((∀ i, decode w ≠ .ok i) ∧ t = { s with eCmd := true, lasterr := 3, errcmd := w }) ∨
    ∃ i, decode w = .ok i ∧
      ((i ≠ .clrerr ∧ t.eMap = s.eMap ∧ t.eBlk = s.eBlk ∧ t.eCmd = s.eCmd ∧ t.eCfg = s.eCfg ∧
          t.lasterr = s.lasterr ∧ t.errcmd = s.errcmd) ∨
       i = .clrerr ∨
       (i.possibleError = some .invalidBlockSize ∧ t = { s with eBlk := true, lasterr := 2, errcmd := w }) ∨
       (i.possibleError = some .notConfigured ∧ t = { s with eCfg := true, lasterr := 4, errcmd := w }) ∨
       (i.possibleError = some .invalidMapping ∧ i ≠ .commit ∧
          t = { s with eMap := true, lasterr := 1, errcmd := w }) ∨
       (i = .commit ∧ t = { s with cfgValid := false, eMap := true, lasterr := 1, errcmd := w }))

/-- An error bit, once set, is cleared only by CLRERR or reset, whatever errors follow it. -/
def Obligations.ErrorBitsAreSticky : Prop :=
  ∀ (s t : State) (e : ErrorKind), step s = .next t → s.errorBit e = true → t.errorBit e = false →
    s.pending.head? = some (.write ⟨0x0C, 4⟩ 0x00000007) ∨ s.pending.head? = some .reset ∨
    ∃ w, s.pending.head? = some (.resetDuring w)

/-- Rule R190: `err_irq` is the conjunction of `ERRIE` and the error bits in every state; it rises with the first error while
`ERRIE` is 1 and when the host sets `ERRIE` over a set error bit; it falls with CLRERR, with `ERRIE`, and at reset. -/
def Obligations.ErrIrqFollowsErrorBits : Prop :=
  (∀ s : State, s.errIrq = (s.errie && (s.eMap || s.eBlk || s.eCmd || s.eCfg))) ∧
  (∀ (s t : State) (w : Word), s.errie = true → s.lasterr = 0 → issue w s = .next t → t.lasterr ≠ 0 →
    t.errIrq = true) ∧
  (∀ (s t : State) (v : Word) (rest : List PortEvent), s.pending = busWrite 0x00 v :: rest → step s = .next t →
    t.errIrq = (v.getLsbD 1 && s.anyError)) ∧
  (∀ s t : State, exec .clrerr s = .next t → t.errIrq = false) ∧
  (∀ (s t : State) (rest : List PortEvent), s.pending = .reset :: rest → step s = .next t → t.errIrq = false)

/-! ### The datapath -/

/-- Rule R120: each nibble of the result is the table's entry for the same nibble of the block. -/
def Obligations.SubstituteMapsEachNibble : Prop :=
  ∀ (s : Block) (t : Table),
    (substitute s t).extractLsb' 0 4 = lookup t (s.extractLsb' 0 4) ∧
    (substitute s t).extractLsb' 4 4 = lookup t (s.extractLsb' 4 4) ∧
    (substitute s t).extractLsb' 8 4 = lookup t (s.extractLsb' 8 4) ∧
    (substitute s t).extractLsb' 12 4 = lookup t (s.extractLsb' 12 4)

/-- A bit of the permuted block is set exactly where some set bit of the block is sent to it. -/
def Obligations.PermuteMovesEachSetBit : Prop :=
  ∀ (s : Block) (q : Table) (j : Nibble),
    (permute s q).getLsbD j.toNat = true ↔ ∃ i : Nibble, s.getLsbD i.toNat = true ∧ lookup q i = j

/-- Through a bijection, bit `Q[i]` of the result is bit `i` of the block, and the number of set bits stays. -/
def Obligations.PermuteByBijectionKeepsEveryBit : Prop :=
  ∀ (s : Block) (q : Table), (∀ v, ∃! x, lookup q x = v) →
    (∀ i : Nibble, (permute s q).getLsbD (lookup q i).toNat = s.getLsbD i.toNat) ∧
    nibbles.countP (fun i => (permute s q).getLsbD i.toNat) = nibbles.countP (fun i => s.getLsbD i.toNat)

/-- Rule R108: the derived inverse of a bijective P-box undoes it, as a table and as a permutation of a block. -/
def Obligations.DerivedInverseUndoesPermutation : Prop :=
  ∀ p : Table, (∀ v, ∃! x, lookup p x = v) →
    (∀ i, lookup (inverse p) (lookup p i) = i) ∧
    (∀ s : Block, permute (permute s p) (inverse p) = s)

/-- Rule R130: under the invariant of the active tables, substitution, permutation and key mixing undo themselves. -/
def Obligations.PrimitivesUndoTheirInverses : Prop :=
  ∀ (s : State), s.tablesInv → ∀ b k : Block,
    substitute (substitute b s.sAct) s.siAct = b ∧ substitute (substitute b s.siAct) s.sAct = b ∧
    permute (permute b s.pAct) s.piAct = b ∧ permute (permute b s.piAct) s.pAct = b ∧
    keyMix (keyMix b k) k = b

/-- Rule R144: decryption and encryption undo each other, for every block, every key schedule and every active table set
with the invariant. -/
def Obligations.DecryptUndoesEncrypt : Prop :=
  ∀ (s : State), s.tablesInv → ∀ (rk : KeySchedule) (p : Block),
    decrypt rk s.siAct s.piAct (encrypt rk s.sAct s.pAct p) = p ∧
    encrypt rk s.sAct s.pAct (decrypt rk s.siAct s.piAct p) = p

/-- On the machine: DEC after ENC, and ENC after DEC, bring back the whole state, from every configured state with the
invariant of the active tables. -/
def Obligations.DecAfterEncRestoresTheMachine : Prop :=
  ∀ s : State, s.tablesInv → s.cfgValid = true →
    execAll [.enc, .dec] s = .next s ∧ execAll [.dec, .enc] s = .next s

/-- Stepping the rounds by hand with the primitive commands gives what ENC and DEC give, from every configured state: no
command hides work that the primitives do not show. -/
def Obligations.SteppedRoundsEqualCipherCommands : Prop :=
  ∀ s : State, s.cfgValid = true →
    execAll [.kmix 0, .sub, .perm, .kmix 1, .sub, .perm, .kmix 2, .sub, .perm, .kmix 3, .sub, .kmix 4] s
      = exec .enc s ∧
    execAll [.kmix 4, .subi, .kmix 3, .permi, .subi, .kmix 2, .permi, .subi, .kmix 1, .permi, .subi, .kmix 0] s
      = exec .dec s

/-- Rule R146: ENC and DEC write `STATE` only, and what they write depends on `STATE`, the round keys and the active tables
alone: two machines that agree on these, and differ in anything else, get the same result. -/
def Obligations.CipherReadsOnlyStateKeysAndActiveTables : Prop :=
  ∀ s u : State, s.cfgValid = true → u.cfgValid = true → s.state = u.state → s.rk = u.rk →
    s.sAct = u.sAct → s.siAct = u.siAct → s.pAct = u.pAct → s.piAct = u.piAct →
    (∃ c, exec .enc s = .next { s with state := c } ∧ exec .enc u = .next { u with state := c }) ∧
    (∃ c, exec .dec s = .next { s with state := c } ∧ exec .dec u = .next { u with state := c })

/-! ### Rules of the whole machine -/

/-- Every command completes, from every state: it never stops the block, and it touches neither what waits at the port nor
what the port has answered (60_exceptions.md section 1). -/
def Obligations.EveryCommandCompletes : Prop :=
  ∀ (w : Word) (s : State), ∃ t, issue w s = .next t ∧
    t.pending = s.pending ∧ t.responses = s.responses ∧ t.draws = s.draws

/-- Which commands write what: none writes `DIN` or `CTRL`; only WRRK writes the round keys; only WRS, WRSI and WRP their
staging tables; only a COMMIT that passes the active tables; only the datapath commands and LDST `STATE`. -/
def Obligations.EachRegisterHasItsWriters : Prop :=
  ∀ (i : Instr) (s t : State), exec i s = .next t →
    t.din = s.din ∧ t.strict = s.strict ∧ t.errie = s.errie ∧
    (t.rk = s.rk ∨ ∃ k, i = .wrrk k) ∧
    (t.sStg = s.sStg ∨ ∃ n, i = .wrs n) ∧ (t.siStg = s.siStg ∨ ∃ n, i = .wrsi n) ∧
    (t.pStg = s.pStg ∨ ∃ n, i = .wrp n) ∧
    ((t.sAct = s.sAct ∧ t.siAct = s.siAct ∧ t.pAct = s.pAct ∧ t.piAct = s.piAct) ∨
      (i = .commit ∧ valid s.sStg s.siStg s.pStg = true)) ∧
    (t.state = s.state ∨ (∃ k, i = .kmix k) ∨
      i ∈ [Instr.ldst, .sub, .subi, .perm, .permi, .kmixd, .enc, .dec])

/-- Until a COMMIT, the staging tables have no effect on any command but those that write them: with other staging tables
every other command does the same to everything else. -/
def Obligations.StagingTablesInvisibleUntilCommit : Prop :=
  ∀ (i : Instr) (s : State) (a b c : Table),
    i ≠ .commit → (∀ n, i ≠ .wrs n) → (∀ n, i ≠ .wrsi n) → (∀ n, i ≠ .wrp n) →
    ∃ t, exec i s = .next t ∧
      exec i { s with sStg := a, siStg := b, pStg := c } = .next { t with sStg := a, siStg := b, pStg := c }

/-- The host cannot read the round keys or any table back: two machines that differ in these alone answer every port event
that is not a command alike, or stop at it alike, and still differ in these alone. -/
def Obligations.KeysAndTablesAreNotInTheWindow : Prop :=
  ∀ (s : State) (rk : KeySchedule) (a b c d e f g : Table) (ev : PortEvent),
    (∀ w, ev ≠ busWrite 0x0C w) →
    match step { s with pending := [ev] },
        step { s with pending := [ev], rk := rk, sStg := a, siStg := b, pStg := c, sAct := d, siAct := e, pAct := f, piAct := g } with
    | .next t, .next u => u = { t with
        rk := u.rk, sStg := u.sStg, siStg := u.siStg, pStg := u.pStg
        sAct := u.sAct, siAct := u.siAct, pAct := u.pAct, piAct := u.piAct }
    | .fault x, .fault y => x = y
    | .refused x, .refused y => x = y
    | _, _ => False

/-- Where every waiting event is admitted, the machine never stops: after any number of steps it is in a next state, and what
still waits is still admitted. -/
def Obligations.AdmittedTransactionsNeverStop : Prop :=
  ∀ (k : Nat) (s : State), s.portOk → ∃ t, runSteps k s = .next t ∧ t.portOk

/-- Seen from one host the block is sequentially consistent: a sequence of transactions has the result of its first part and
then, from the state that leaves, its second, and observes what the first part observes and then what the second does. -/
def Obligations.TransactionsComposeInProgramOrder : Prop :=
  ∀ (p q : List PortEvent) (s : State),
    (∀ t : State, runProgram (p ++ q) s = .next t ↔ ∃ u, runProgram p s = .next u ∧ runProgram q u = .next t) ∧
    (∀ o : Observation, observe (p ++ q) s = .next o ↔
      ∃ a b, observe p s = .next a ∧ observe q a.final = .next b ∧ o = ⟨a.values ++ b.values, b.final⟩)

/-- A host program ends when its last transaction has completed, with nothing left waiting, and observes one value for each of
its reads and the state at its end, from every state in which only admitted events wait: those are served first, and neither
what they read nor what the port answered before counts as the program's. -/
def Obligations.HostProgramEndsAndObservesItsOwnReads : Prop :=
  ∀ (p : List PortEvent) (s : State), isHostProgram p = true → s.portOk →
    ∃ (u : State) (o : Observation), runSteps s.pending.length s = .next u ∧ u.pending = [] ∧
      observe p s = .next o ∧ runProgram p s = .next o.final ∧ o.final.pending = [] ∧
      (∃ rs, o.final.responses = u.responses ++ rs ∧ rs.length = p.length ∧ o.values = observed rs) ∧
      o.values.length = p.countP PortEvent.isRead ∧
      ∀ r : List Response, ∃ t, observe p { s with responses := r } = .next ⟨o.values, t⟩

/-- Several masters. A merged order holds every transaction of every master once, and each master's sequence in its order.
The merged orders are exactly those in which each place can be given to a master so that each master's places, read in order,
are its whole sequence: every such interleaving is admitted and no other. One master alone has only its own order. -/
def Obligations.InterleavingsKeepEachMastersOrder : Prop :=
  (∀ (queues : List (List PortEvent)) (merged : List PortEvent), interleaves queues merged = true →
    merged.Perm queues.flatten ∧ ∀ q ∈ queues, q.Sublist merged) ∧
  (∀ (queues : List (List PortEvent)) (merged : List PortEvent), interleaves queues merged = true ↔
    ∃ tagged : List (Nat × PortEvent), tagged.map (·.2) = merged ∧ (∀ p ∈ tagged, p.1 < queues.length) ∧
      ∀ (m : Nat) (h : m < queues.length), (tagged.filter fun p => p.1 = m).map (·.2) = queues[m]) ∧
  (∀ q merged : List PortEvent, interleaves [q] merged = true ↔ merged = q)

/-- The key material of 20 hexadecimal digits: slice `i` is the number its four digits denote, most significant first. That
the first digit is the most significant is no statement of the spec's source: the spec supplies it as general knowledge (G1
of 93_implementation_defined.md), and the model follows it (PRESUMED, unsafe; assumption log, entry 12). -/
def Obligations.KeySlicesAreTheDigits : Prop :=
  ∀ (d : Vector Nibble 20) (i : Nat) (h : i < 5),
    keySlice (materialOfDigits d) i = d[4 * i] ++ d[4 * i + 1] ++ d[4 * i + 2] ++ d[4 * i + 3]

/-- The window of a block at `base` is the 0x100 bus addresses from `base` on, and no others. -/
def Obligations.WindowIsTheBytesFromBase : Prop :=
  ∀ base addr off : Nat, windowOffset base addr = some off ↔ off < 0x100 ∧ addr = base + off

/-- Rule R51 on the bus: what a block at `base` makes of one access to bus addresses. It goes on exactly where the access
touches no byte of its window, or is a 32-bit access at a multiple of 4 in 0x00..0xFC; every other access that touches the
window, one that starts below it included, has no step. (That an access reaching the window from below is one the rule
does not admit is DEDUCED: assumption log, entry 2.) -/
def Obligations.BusAccessTouchingTheWindowIsAdmittedOrStops : Prop :=
  ∀ (base addr bytes : Nat) (v : Word) (s : State) (e : BusEvent), 0 < bytes → s.pending = [] →
    (e = .read addr bytes ∨ e = .write addr bytes v) →
    ((∃ t, runProgram (atBlock base [e]) s = .next t) ↔
      (addr + bytes ≤ base ∨ base + 0x100 ≤ addr) ∨
      (bytes = 4 ∧ ∃ off, addr = base + off ∧ off % 4 = 0 ∧ off ≤ 0xFC))

/-- Blocks whose windows do not overlap share nothing: a bus event that one of them is given, and has a step for, is not given
to the other. (That a reset event names its block is the model's choice: assumption log, entry 16.) -/
def Obligations.DisjointBlocksShareNoAdmittedEvent : Prop :=
  ∀ (a b : Nat) (e : BusEvent) (p : PortEvent), (a + 0x100 ≤ b ∨ b + 0x100 ≤ a) →
    atBlock a [e] = [p] → p.admitted = true → atBlock b [e] = []
end

