-- ==== Sys2Proof/Laws/Decode.lean ====
section
/-! SUPPORT. Sys2Proof/Laws/Decode.lean: the fields of an encoded word and the inversion of the decoder's two index checks. -/

namespace Sys2Proof

@[simp] theorem opcOf_encode (i : Instr) : opcOf (encode i) = i.opcode := by
  unfold opcOf encode
  apply BitVec.eq_of_getLsbD_eq
  intro k hk
  simp only [BitVec.getLsbD_extractLsb', BitVec.getLsbD_setWidth, BitVec.getLsbD_append]
  simp [hk]; omega

@[simp] theorem idxOf_encode (i : Instr) : idxOf (encode i) = i.index := by
  unfold idxOf encode
  apply BitVec.eq_of_getLsbD_eq
  intro k hk
  simp only [BitVec.getLsbD_extractLsb', BitVec.getLsbD_setWidth, BitVec.getLsbD_append]
  simp [hk]; omega

@[simp] theorem rsvOf_encode (i : Instr) : rsvOf (encode i) = 0 := by
  have h := (i.index ++ i.opcode).isLt
  apply BitVec.eq_of_toNat_eq
  simp only [rsvOf, encode, BitVec.extractLsb'_toNat, BitVec.toNat_setWidth, Nat.shiftRight_eq_div_pow,
    BitVec.ofNat_eq_ofNat, BitVec.toNat_ofNat]
  omega

/-- A word is its three fields (R71). -/
theorem word_ext {w v : Word} (ho : opcOf w = opcOf v) (hi : idxOf w = idxOf v) (hr : rsvOf w = rsvOf v) : w = v := by
  have ho' := congrArg BitVec.toNat ho
  have hi' := congrArg BitVec.toNat hi
  have hr' := congrArg BitVec.toNat hr
  simp only [opcOf, idxOf, rsvOf, BitVec.extractLsb'_toNat, Nat.shiftRight_eq_div_pow] at ho' hi' hr'
  apply BitVec.eq_of_toNat_eq
  have := w.isLt
  have := v.isLt
  omega

theorem withoutIndex_eq_ok_iff (x : Nibble) (i j : Instr) : withoutIndex x i = .ok j ↔ x = 0 ∧ i = j := by
  unfold withoutIndex
  by_cases h : x = 0
  · rw [if_pos h]; simp [h]
  · rw [if_neg h]; exact ⟨fun e => (nomatch e), fun e => absurd e.1 h⟩

theorem withKeyIndex_eq_ok_iff (x : Nibble) (f : Nibble → Instr) (j : Instr) :
    withKeyIndex x f = .ok j ↔ x.toNat ≤ 4 ∧ f x = j := by
  unfold withKeyIndex
  by_cases h : x.toNat ≤ 4 <;> simp [h]

end Sys2Proof
end

