-- ==== Sys2Proof/Laws/State.lean ====
section
/-! SUPPORT. Sys2Proof/Laws/State.lean: what each named update of Machine/Ops.lean leaves in each field of the state. Every
lemma is true by computation; no proof need unfold a record update. -/

namespace Sys2Proof.Machine

variable (s : State)

/-! `setState` -/

@[simp] theorem State.setState_state (v : Block) : (s.setState v).state = v := rfl
@[simp] theorem State.setState_din (v : Block) : (s.setState v).din = s.din := rfl
@[simp] theorem State.setState_rk (v : Block) : (s.setState v).rk = s.rk := rfl
@[simp] theorem State.setState_strict (v : Block) : (s.setState v).strict = s.strict := rfl
@[simp] theorem State.setState_errie (v : Block) : (s.setState v).errie = s.errie := rfl
@[simp] theorem State.setState_cfgValid (v : Block) : (s.setState v).cfgValid = s.cfgValid := rfl
@[simp] theorem State.setState_eMap (v : Block) : (s.setState v).eMap = s.eMap := rfl
@[simp] theorem State.setState_eBlk (v : Block) : (s.setState v).eBlk = s.eBlk := rfl
@[simp] theorem State.setState_eCmd (v : Block) : (s.setState v).eCmd = s.eCmd := rfl
@[simp] theorem State.setState_eCfg (v : Block) : (s.setState v).eCfg = s.eCfg := rfl
@[simp] theorem State.setState_lasterr (v : Block) : (s.setState v).lasterr = s.lasterr := rfl
@[simp] theorem State.setState_errcmd (v : Block) : (s.setState v).errcmd = s.errcmd := rfl
@[simp] theorem State.setState_sStg (v : Block) : (s.setState v).sStg = s.sStg := rfl
@[simp] theorem State.setState_siStg (v : Block) : (s.setState v).siStg = s.siStg := rfl
@[simp] theorem State.setState_pStg (v : Block) : (s.setState v).pStg = s.pStg := rfl
@[simp] theorem State.setState_sAct (v : Block) : (s.setState v).sAct = s.sAct := rfl
@[simp] theorem State.setState_siAct (v : Block) : (s.setState v).siAct = s.siAct := rfl
@[simp] theorem State.setState_pAct (v : Block) : (s.setState v).pAct = s.pAct := rfl
@[simp] theorem State.setState_piAct (v : Block) : (s.setState v).piAct = s.piAct := rfl
@[simp] theorem State.setState_pending (v : Block) : (s.setState v).pending = s.pending := rfl
@[simp] theorem State.setState_responses (v : Block) : (s.setState v).responses = s.responses := rfl
@[simp] theorem State.setState_draws (v : Block) : (s.setState v).draws = s.draws := rfl

/-! `setRk` -/

@[simp] theorem State.setRk_state (i : Fin 5) (v : Block) : (s.setRk i v).state = s.state := rfl
@[simp] theorem State.setRk_din (i : Fin 5) (v : Block) : (s.setRk i v).din = s.din := rfl
@[simp] theorem State.setRk_rk (i : Fin 5) (v : Block) : (s.setRk i v).rk = s.rk.set i v := rfl
@[simp] theorem State.setRk_strict (i : Fin 5) (v : Block) : (s.setRk i v).strict = s.strict := rfl
@[simp] theorem State.setRk_errie (i : Fin 5) (v : Block) : (s.setRk i v).errie = s.errie := rfl
@[simp] theorem State.setRk_cfgValid (i : Fin 5) (v : Block) : (s.setRk i v).cfgValid = s.cfgValid := rfl
@[simp] theorem State.setRk_eMap (i : Fin 5) (v : Block) : (s.setRk i v).eMap = s.eMap := rfl
@[simp] theorem State.setRk_eBlk (i : Fin 5) (v : Block) : (s.setRk i v).eBlk = s.eBlk := rfl
@[simp] theorem State.setRk_eCmd (i : Fin 5) (v : Block) : (s.setRk i v).eCmd = s.eCmd := rfl
@[simp] theorem State.setRk_eCfg (i : Fin 5) (v : Block) : (s.setRk i v).eCfg = s.eCfg := rfl
@[simp] theorem State.setRk_lasterr (i : Fin 5) (v : Block) : (s.setRk i v).lasterr = s.lasterr := rfl
@[simp] theorem State.setRk_errcmd (i : Fin 5) (v : Block) : (s.setRk i v).errcmd = s.errcmd := rfl
@[simp] theorem State.setRk_sStg (i : Fin 5) (v : Block) : (s.setRk i v).sStg = s.sStg := rfl
@[simp] theorem State.setRk_siStg (i : Fin 5) (v : Block) : (s.setRk i v).siStg = s.siStg := rfl
@[simp] theorem State.setRk_pStg (i : Fin 5) (v : Block) : (s.setRk i v).pStg = s.pStg := rfl
@[simp] theorem State.setRk_sAct (i : Fin 5) (v : Block) : (s.setRk i v).sAct = s.sAct := rfl
@[simp] theorem State.setRk_siAct (i : Fin 5) (v : Block) : (s.setRk i v).siAct = s.siAct := rfl
@[simp] theorem State.setRk_pAct (i : Fin 5) (v : Block) : (s.setRk i v).pAct = s.pAct := rfl
@[simp] theorem State.setRk_piAct (i : Fin 5) (v : Block) : (s.setRk i v).piAct = s.piAct := rfl
@[simp] theorem State.setRk_pending (i : Fin 5) (v : Block) : (s.setRk i v).pending = s.pending := rfl
@[simp] theorem State.setRk_responses (i : Fin 5) (v : Block) : (s.setRk i v).responses = s.responses := rfl
@[simp] theorem State.setRk_draws (i : Fin 5) (v : Block) : (s.setRk i v).draws = s.draws := rfl

/-! `setSStg` -/

@[simp] theorem State.setSStg_state (n v : Nibble) : (s.setSStg n v).state = s.state := rfl
@[simp] theorem State.setSStg_din (n v : Nibble) : (s.setSStg n v).din = s.din := rfl
@[simp] theorem State.setSStg_rk (n v : Nibble) : (s.setSStg n v).rk = s.rk := rfl
@[simp] theorem State.setSStg_strict (n v : Nibble) : (s.setSStg n v).strict = s.strict := rfl
@[simp] theorem State.setSStg_errie (n v : Nibble) : (s.setSStg n v).errie = s.errie := rfl
@[simp] theorem State.setSStg_cfgValid (n v : Nibble) : (s.setSStg n v).cfgValid = s.cfgValid := rfl
@[simp] theorem State.setSStg_eMap (n v : Nibble) : (s.setSStg n v).eMap = s.eMap := rfl
@[simp] theorem State.setSStg_eBlk (n v : Nibble) : (s.setSStg n v).eBlk = s.eBlk := rfl
@[simp] theorem State.setSStg_eCmd (n v : Nibble) : (s.setSStg n v).eCmd = s.eCmd := rfl
@[simp] theorem State.setSStg_eCfg (n v : Nibble) : (s.setSStg n v).eCfg = s.eCfg := rfl
@[simp] theorem State.setSStg_lasterr (n v : Nibble) : (s.setSStg n v).lasterr = s.lasterr := rfl
@[simp] theorem State.setSStg_errcmd (n v : Nibble) : (s.setSStg n v).errcmd = s.errcmd := rfl
@[simp] theorem State.setSStg_sStg (n v : Nibble) : (s.setSStg n v).sStg = update s.sStg n v := rfl
@[simp] theorem State.setSStg_siStg (n v : Nibble) : (s.setSStg n v).siStg = s.siStg := rfl
@[simp] theorem State.setSStg_pStg (n v : Nibble) : (s.setSStg n v).pStg = s.pStg := rfl
@[simp] theorem State.setSStg_sAct (n v : Nibble) : (s.setSStg n v).sAct = s.sAct := rfl
@[simp] theorem State.setSStg_siAct (n v : Nibble) : (s.setSStg n v).siAct = s.siAct := rfl
@[simp] theorem State.setSStg_pAct (n v : Nibble) : (s.setSStg n v).pAct = s.pAct := rfl
@[simp] theorem State.setSStg_piAct (n v : Nibble) : (s.setSStg n v).piAct = s.piAct := rfl
@[simp] theorem State.setSStg_pending (n v : Nibble) : (s.setSStg n v).pending = s.pending := rfl
@[simp] theorem State.setSStg_responses (n v : Nibble) : (s.setSStg n v).responses = s.responses := rfl
@[simp] theorem State.setSStg_draws (n v : Nibble) : (s.setSStg n v).draws = s.draws := rfl

/-! `setSiStg` -/

@[simp] theorem State.setSiStg_state (n v : Nibble) : (s.setSiStg n v).state = s.state := rfl
@[simp] theorem State.setSiStg_din (n v : Nibble) : (s.setSiStg n v).din = s.din := rfl
@[simp] theorem State.setSiStg_rk (n v : Nibble) : (s.setSiStg n v).rk = s.rk := rfl
@[simp] theorem State.setSiStg_strict (n v : Nibble) : (s.setSiStg n v).strict = s.strict := rfl
@[simp] theorem State.setSiStg_errie (n v : Nibble) : (s.setSiStg n v).errie = s.errie := rfl
@[simp] theorem State.setSiStg_cfgValid (n v : Nibble) : (s.setSiStg n v).cfgValid = s.cfgValid := rfl
@[simp] theorem State.setSiStg_eMap (n v : Nibble) : (s.setSiStg n v).eMap = s.eMap := rfl
@[simp] theorem State.setSiStg_eBlk (n v : Nibble) : (s.setSiStg n v).eBlk = s.eBlk := rfl
@[simp] theorem State.setSiStg_eCmd (n v : Nibble) : (s.setSiStg n v).eCmd = s.eCmd := rfl
@[simp] theorem State.setSiStg_eCfg (n v : Nibble) : (s.setSiStg n v).eCfg = s.eCfg := rfl
@[simp] theorem State.setSiStg_lasterr (n v : Nibble) : (s.setSiStg n v).lasterr = s.lasterr := rfl
@[simp] theorem State.setSiStg_errcmd (n v : Nibble) : (s.setSiStg n v).errcmd = s.errcmd := rfl
@[simp] theorem State.setSiStg_sStg (n v : Nibble) : (s.setSiStg n v).sStg = s.sStg := rfl
@[simp] theorem State.setSiStg_siStg (n v : Nibble) : (s.setSiStg n v).siStg = update s.siStg n v := rfl
@[simp] theorem State.setSiStg_pStg (n v : Nibble) : (s.setSiStg n v).pStg = s.pStg := rfl
@[simp] theorem State.setSiStg_sAct (n v : Nibble) : (s.setSiStg n v).sAct = s.sAct := rfl
@[simp] theorem State.setSiStg_siAct (n v : Nibble) : (s.setSiStg n v).siAct = s.siAct := rfl
@[simp] theorem State.setSiStg_pAct (n v : Nibble) : (s.setSiStg n v).pAct = s.pAct := rfl
@[simp] theorem State.setSiStg_piAct (n v : Nibble) : (s.setSiStg n v).piAct = s.piAct := rfl
@[simp] theorem State.setSiStg_pending (n v : Nibble) : (s.setSiStg n v).pending = s.pending := rfl
@[simp] theorem State.setSiStg_responses (n v : Nibble) : (s.setSiStg n v).responses = s.responses := rfl
@[simp] theorem State.setSiStg_draws (n v : Nibble) : (s.setSiStg n v).draws = s.draws := rfl

/-! `setPStg` -/

@[simp] theorem State.setPStg_state (n v : Nibble) : (s.setPStg n v).state = s.state := rfl
@[simp] theorem State.setPStg_din (n v : Nibble) : (s.setPStg n v).din = s.din := rfl
@[simp] theorem State.setPStg_rk (n v : Nibble) : (s.setPStg n v).rk = s.rk := rfl
@[simp] theorem State.setPStg_strict (n v : Nibble) : (s.setPStg n v).strict = s.strict := rfl
@[simp] theorem State.setPStg_errie (n v : Nibble) : (s.setPStg n v).errie = s.errie := rfl
@[simp] theorem State.setPStg_cfgValid (n v : Nibble) : (s.setPStg n v).cfgValid = s.cfgValid := rfl
@[simp] theorem State.setPStg_eMap (n v : Nibble) : (s.setPStg n v).eMap = s.eMap := rfl
@[simp] theorem State.setPStg_eBlk (n v : Nibble) : (s.setPStg n v).eBlk = s.eBlk := rfl
@[simp] theorem State.setPStg_eCmd (n v : Nibble) : (s.setPStg n v).eCmd = s.eCmd := rfl
@[simp] theorem State.setPStg_eCfg (n v : Nibble) : (s.setPStg n v).eCfg = s.eCfg := rfl
@[simp] theorem State.setPStg_lasterr (n v : Nibble) : (s.setPStg n v).lasterr = s.lasterr := rfl
@[simp] theorem State.setPStg_errcmd (n v : Nibble) : (s.setPStg n v).errcmd = s.errcmd := rfl
@[simp] theorem State.setPStg_sStg (n v : Nibble) : (s.setPStg n v).sStg = s.sStg := rfl
@[simp] theorem State.setPStg_siStg (n v : Nibble) : (s.setPStg n v).siStg = s.siStg := rfl
@[simp] theorem State.setPStg_pStg (n v : Nibble) : (s.setPStg n v).pStg = update s.pStg n v := rfl
@[simp] theorem State.setPStg_sAct (n v : Nibble) : (s.setPStg n v).sAct = s.sAct := rfl
@[simp] theorem State.setPStg_siAct (n v : Nibble) : (s.setPStg n v).siAct = s.siAct := rfl
@[simp] theorem State.setPStg_pAct (n v : Nibble) : (s.setPStg n v).pAct = s.pAct := rfl
@[simp] theorem State.setPStg_piAct (n v : Nibble) : (s.setPStg n v).piAct = s.piAct := rfl
@[simp] theorem State.setPStg_pending (n v : Nibble) : (s.setPStg n v).pending = s.pending := rfl
@[simp] theorem State.setPStg_responses (n v : Nibble) : (s.setPStg n v).responses = s.responses := rfl
@[simp] theorem State.setPStg_draws (n v : Nibble) : (s.setPStg n v).draws = s.draws := rfl

/-! `activate` -/

@[simp] theorem State.activate_state : (s.activate).state = s.state := rfl
@[simp] theorem State.activate_din : (s.activate).din = s.din := rfl
@[simp] theorem State.activate_rk : (s.activate).rk = s.rk := rfl
@[simp] theorem State.activate_strict : (s.activate).strict = s.strict := rfl
@[simp] theorem State.activate_errie : (s.activate).errie = s.errie := rfl
@[simp] theorem State.activate_cfgValid : (s.activate).cfgValid = true := rfl
@[simp] theorem State.activate_eMap : (s.activate).eMap = s.eMap := rfl
@[simp] theorem State.activate_eBlk : (s.activate).eBlk = s.eBlk := rfl
@[simp] theorem State.activate_eCmd : (s.activate).eCmd = s.eCmd := rfl
@[simp] theorem State.activate_eCfg : (s.activate).eCfg = s.eCfg := rfl
@[simp] theorem State.activate_lasterr : (s.activate).lasterr = s.lasterr := rfl
@[simp] theorem State.activate_errcmd : (s.activate).errcmd = s.errcmd := rfl
@[simp] theorem State.activate_sStg : (s.activate).sStg = s.sStg := rfl
@[simp] theorem State.activate_siStg : (s.activate).siStg = s.siStg := rfl
@[simp] theorem State.activate_pStg : (s.activate).pStg = s.pStg := rfl
@[simp] theorem State.activate_sAct : (s.activate).sAct = s.sStg := rfl
@[simp] theorem State.activate_siAct : (s.activate).siAct = s.siStg := rfl
@[simp] theorem State.activate_pAct : (s.activate).pAct = s.pStg := rfl
@[simp] theorem State.activate_piAct : (s.activate).piAct = inverse s.pStg := rfl
@[simp] theorem State.activate_pending : (s.activate).pending = s.pending := rfl
@[simp] theorem State.activate_responses : (s.activate).responses = s.responses := rfl
@[simp] theorem State.activate_draws : (s.activate).draws = s.draws := rfl

/-! `invalidate` -/

@[simp] theorem State.invalidate_state : (s.invalidate).state = s.state := rfl
@[simp] theorem State.invalidate_din : (s.invalidate).din = s.din := rfl
@[simp] theorem State.invalidate_rk : (s.invalidate).rk = s.rk := rfl
@[simp] theorem State.invalidate_strict : (s.invalidate).strict = s.strict := rfl
@[simp] theorem State.invalidate_errie : (s.invalidate).errie = s.errie := rfl
@[simp] theorem State.invalidate_cfgValid : (s.invalidate).cfgValid = false := rfl
@[simp] theorem State.invalidate_eMap : (s.invalidate).eMap = s.eMap := rfl
@[simp] theorem State.invalidate_eBlk : (s.invalidate).eBlk = s.eBlk := rfl
@[simp] theorem State.invalidate_eCmd : (s.invalidate).eCmd = s.eCmd := rfl
@[simp] theorem State.invalidate_eCfg : (s.invalidate).eCfg = s.eCfg := rfl
@[simp] theorem State.invalidate_lasterr : (s.invalidate).lasterr = s.lasterr := rfl
@[simp] theorem State.invalidate_errcmd : (s.invalidate).errcmd = s.errcmd := rfl
@[simp] theorem State.invalidate_sStg : (s.invalidate).sStg = s.sStg := rfl
@[simp] theorem State.invalidate_siStg : (s.invalidate).siStg = s.siStg := rfl
@[simp] theorem State.invalidate_pStg : (s.invalidate).pStg = s.pStg := rfl
@[simp] theorem State.invalidate_sAct : (s.invalidate).sAct = s.sAct := rfl
@[simp] theorem State.invalidate_siAct : (s.invalidate).siAct = s.siAct := rfl
@[simp] theorem State.invalidate_pAct : (s.invalidate).pAct = s.pAct := rfl
@[simp] theorem State.invalidate_piAct : (s.invalidate).piAct = s.piAct := rfl
@[simp] theorem State.invalidate_pending : (s.invalidate).pending = s.pending := rfl
@[simp] theorem State.invalidate_responses : (s.invalidate).responses = s.responses := rfl
@[simp] theorem State.invalidate_draws : (s.invalidate).draws = s.draws := rfl

/-! `raiseError` -/

@[simp] theorem State.raiseError_state (e : ErrorKind) (w : Word) : (s.raiseError e w).state = s.state := rfl
@[simp] theorem State.raiseError_din (e : ErrorKind) (w : Word) : (s.raiseError e w).din = s.din := rfl
@[simp] theorem State.raiseError_rk (e : ErrorKind) (w : Word) : (s.raiseError e w).rk = s.rk := rfl
@[simp] theorem State.raiseError_strict (e : ErrorKind) (w : Word) : (s.raiseError e w).strict = s.strict := rfl
@[simp] theorem State.raiseError_errie (e : ErrorKind) (w : Word) : (s.raiseError e w).errie = s.errie := rfl
@[simp] theorem State.raiseError_cfgValid (e : ErrorKind) (w : Word) : (s.raiseError e w).cfgValid = s.cfgValid := rfl
@[simp] theorem State.raiseError_eMap (e : ErrorKind) (w : Word) : (s.raiseError e w).eMap = (s.eMap || decide (e = .invalidMapping)) := rfl
@[simp] theorem State.raiseError_eBlk (e : ErrorKind) (w : Word) : (s.raiseError e w).eBlk = (s.eBlk || decide (e = .invalidBlockSize)) := rfl
@[simp] theorem State.raiseError_eCmd (e : ErrorKind) (w : Word) : (s.raiseError e w).eCmd = (s.eCmd || decide (e = .illegalCommand)) := rfl
@[simp] theorem State.raiseError_eCfg (e : ErrorKind) (w : Word) : (s.raiseError e w).eCfg = (s.eCfg || decide (e = .notConfigured)) := rfl
@[simp] theorem State.raiseError_lasterr (e : ErrorKind) (w : Word) : (s.raiseError e w).lasterr = e.code := rfl
@[simp] theorem State.raiseError_errcmd (e : ErrorKind) (w : Word) : (s.raiseError e w).errcmd = w := rfl
@[simp] theorem State.raiseError_sStg (e : ErrorKind) (w : Word) : (s.raiseError e w).sStg = s.sStg := rfl
@[simp] theorem State.raiseError_siStg (e : ErrorKind) (w : Word) : (s.raiseError e w).siStg = s.siStg := rfl
@[simp] theorem State.raiseError_pStg (e : ErrorKind) (w : Word) : (s.raiseError e w).pStg = s.pStg := rfl
@[simp] theorem State.raiseError_sAct (e : ErrorKind) (w : Word) : (s.raiseError e w).sAct = s.sAct := rfl
@[simp] theorem State.raiseError_siAct (e : ErrorKind) (w : Word) : (s.raiseError e w).siAct = s.siAct := rfl
@[simp] theorem State.raiseError_pAct (e : ErrorKind) (w : Word) : (s.raiseError e w).pAct = s.pAct := rfl
@[simp] theorem State.raiseError_piAct (e : ErrorKind) (w : Word) : (s.raiseError e w).piAct = s.piAct := rfl
@[simp] theorem State.raiseError_pending (e : ErrorKind) (w : Word) : (s.raiseError e w).pending = s.pending := rfl
@[simp] theorem State.raiseError_responses (e : ErrorKind) (w : Word) : (s.raiseError e w).responses = s.responses := rfl
@[simp] theorem State.raiseError_draws (e : ErrorKind) (w : Word) : (s.raiseError e w).draws = s.draws := rfl

/-! `clearErrors` -/

@[simp] theorem State.clearErrors_state : (s.clearErrors).state = s.state := rfl
@[simp] theorem State.clearErrors_din : (s.clearErrors).din = s.din := rfl
@[simp] theorem State.clearErrors_rk : (s.clearErrors).rk = s.rk := rfl
@[simp] theorem State.clearErrors_strict : (s.clearErrors).strict = s.strict := rfl
@[simp] theorem State.clearErrors_errie : (s.clearErrors).errie = s.errie := rfl
@[simp] theorem State.clearErrors_cfgValid : (s.clearErrors).cfgValid = s.cfgValid := rfl
@[simp] theorem State.clearErrors_eMap : (s.clearErrors).eMap = false := rfl
@[simp] theorem State.clearErrors_eBlk : (s.clearErrors).eBlk = false := rfl
@[simp] theorem State.clearErrors_eCmd : (s.clearErrors).eCmd = false := rfl
@[simp] theorem State.clearErrors_eCfg : (s.clearErrors).eCfg = false := rfl
@[simp] theorem State.clearErrors_lasterr : (s.clearErrors).lasterr = 0 := rfl
@[simp] theorem State.clearErrors_errcmd : (s.clearErrors).errcmd = 0 := rfl
@[simp] theorem State.clearErrors_sStg : (s.clearErrors).sStg = s.sStg := rfl
@[simp] theorem State.clearErrors_siStg : (s.clearErrors).siStg = s.siStg := rfl
@[simp] theorem State.clearErrors_pStg : (s.clearErrors).pStg = s.pStg := rfl
@[simp] theorem State.clearErrors_sAct : (s.clearErrors).sAct = s.sAct := rfl
@[simp] theorem State.clearErrors_siAct : (s.clearErrors).siAct = s.siAct := rfl
@[simp] theorem State.clearErrors_pAct : (s.clearErrors).pAct = s.pAct := rfl
@[simp] theorem State.clearErrors_piAct : (s.clearErrors).piAct = s.piAct := rfl
@[simp] theorem State.clearErrors_pending : (s.clearErrors).pending = s.pending := rfl
@[simp] theorem State.clearErrors_responses : (s.clearErrors).responses = s.responses := rfl
@[simp] theorem State.clearErrors_draws : (s.clearErrors).draws = s.draws := rfl

/-! `writeCtrl` -/

@[simp] theorem State.writeCtrl_state (x : Word) : (s.writeCtrl x).state = s.state := rfl
@[simp] theorem State.writeCtrl_din (x : Word) : (s.writeCtrl x).din = s.din := rfl
@[simp] theorem State.writeCtrl_rk (x : Word) : (s.writeCtrl x).rk = s.rk := rfl
@[simp] theorem State.writeCtrl_strict (x : Word) : (s.writeCtrl x).strict = x.getLsbD 0 := rfl
@[simp] theorem State.writeCtrl_errie (x : Word) : (s.writeCtrl x).errie = x.getLsbD 1 := rfl
@[simp] theorem State.writeCtrl_cfgValid (x : Word) : (s.writeCtrl x).cfgValid = s.cfgValid := rfl
@[simp] theorem State.writeCtrl_eMap (x : Word) : (s.writeCtrl x).eMap = s.eMap := rfl
@[simp] theorem State.writeCtrl_eBlk (x : Word) : (s.writeCtrl x).eBlk = s.eBlk := rfl
@[simp] theorem State.writeCtrl_eCmd (x : Word) : (s.writeCtrl x).eCmd = s.eCmd := rfl
@[simp] theorem State.writeCtrl_eCfg (x : Word) : (s.writeCtrl x).eCfg = s.eCfg := rfl
@[simp] theorem State.writeCtrl_lasterr (x : Word) : (s.writeCtrl x).lasterr = s.lasterr := rfl
@[simp] theorem State.writeCtrl_errcmd (x : Word) : (s.writeCtrl x).errcmd = s.errcmd := rfl
@[simp] theorem State.writeCtrl_sStg (x : Word) : (s.writeCtrl x).sStg = s.sStg := rfl
@[simp] theorem State.writeCtrl_siStg (x : Word) : (s.writeCtrl x).siStg = s.siStg := rfl
@[simp] theorem State.writeCtrl_pStg (x : Word) : (s.writeCtrl x).pStg = s.pStg := rfl
@[simp] theorem State.writeCtrl_sAct (x : Word) : (s.writeCtrl x).sAct = s.sAct := rfl
@[simp] theorem State.writeCtrl_siAct (x : Word) : (s.writeCtrl x).siAct = s.siAct := rfl
@[simp] theorem State.writeCtrl_pAct (x : Word) : (s.writeCtrl x).pAct = s.pAct := rfl
@[simp] theorem State.writeCtrl_piAct (x : Word) : (s.writeCtrl x).piAct = s.piAct := rfl
@[simp] theorem State.writeCtrl_pending (x : Word) : (s.writeCtrl x).pending = s.pending := rfl
@[simp] theorem State.writeCtrl_responses (x : Word) : (s.writeCtrl x).responses = s.responses := rfl
@[simp] theorem State.writeCtrl_draws (x : Word) : (s.writeCtrl x).draws = s.draws := rfl

/-! `writeDin` -/

@[simp] theorem State.writeDin_state (x : Word) : (s.writeDin x).state = s.state := rfl
@[simp] theorem State.writeDin_din (x : Word) : (s.writeDin x).din = x := rfl
@[simp] theorem State.writeDin_rk (x : Word) : (s.writeDin x).rk = s.rk := rfl
@[simp] theorem State.writeDin_strict (x : Word) : (s.writeDin x).strict = s.strict := rfl
@[simp] theorem State.writeDin_errie (x : Word) : (s.writeDin x).errie = s.errie := rfl
@[simp] theorem State.writeDin_cfgValid (x : Word) : (s.writeDin x).cfgValid = s.cfgValid := rfl
@[simp] theorem State.writeDin_eMap (x : Word) : (s.writeDin x).eMap = s.eMap := rfl
@[simp] theorem State.writeDin_eBlk (x : Word) : (s.writeDin x).eBlk = s.eBlk := rfl
@[simp] theorem State.writeDin_eCmd (x : Word) : (s.writeDin x).eCmd = s.eCmd := rfl
@[simp] theorem State.writeDin_eCfg (x : Word) : (s.writeDin x).eCfg = s.eCfg := rfl
@[simp] theorem State.writeDin_lasterr (x : Word) : (s.writeDin x).lasterr = s.lasterr := rfl
@[simp] theorem State.writeDin_errcmd (x : Word) : (s.writeDin x).errcmd = s.errcmd := rfl
@[simp] theorem State.writeDin_sStg (x : Word) : (s.writeDin x).sStg = s.sStg := rfl
@[simp] theorem State.writeDin_siStg (x : Word) : (s.writeDin x).siStg = s.siStg := rfl
@[simp] theorem State.writeDin_pStg (x : Word) : (s.writeDin x).pStg = s.pStg := rfl
@[simp] theorem State.writeDin_sAct (x : Word) : (s.writeDin x).sAct = s.sAct := rfl
@[simp] theorem State.writeDin_siAct (x : Word) : (s.writeDin x).siAct = s.siAct := rfl
@[simp] theorem State.writeDin_pAct (x : Word) : (s.writeDin x).pAct = s.pAct := rfl
@[simp] theorem State.writeDin_piAct (x : Word) : (s.writeDin x).piAct = s.piAct := rfl
@[simp] theorem State.writeDin_pending (x : Word) : (s.writeDin x).pending = s.pending := rfl
@[simp] theorem State.writeDin_responses (x : Word) : (s.writeDin x).responses = s.responses := rfl
@[simp] theorem State.writeDin_draws (x : Word) : (s.writeDin x).draws = s.draws := rfl

/-! `accept` -/

@[simp] theorem State.accept_state (l : List PortEvent) : (s.accept l).state = s.state := rfl
@[simp] theorem State.accept_din (l : List PortEvent) : (s.accept l).din = s.din := rfl
@[simp] theorem State.accept_rk (l : List PortEvent) : (s.accept l).rk = s.rk := rfl
@[simp] theorem State.accept_strict (l : List PortEvent) : (s.accept l).strict = s.strict := rfl
@[simp] theorem State.accept_errie (l : List PortEvent) : (s.accept l).errie = s.errie := rfl
@[simp] theorem State.accept_cfgValid (l : List PortEvent) : (s.accept l).cfgValid = s.cfgValid := rfl
@[simp] theorem State.accept_eMap (l : List PortEvent) : (s.accept l).eMap = s.eMap := rfl
@[simp] theorem State.accept_eBlk (l : List PortEvent) : (s.accept l).eBlk = s.eBlk := rfl
@[simp] theorem State.accept_eCmd (l : List PortEvent) : (s.accept l).eCmd = s.eCmd := rfl
@[simp] theorem State.accept_eCfg (l : List PortEvent) : (s.accept l).eCfg = s.eCfg := rfl
@[simp] theorem State.accept_lasterr (l : List PortEvent) : (s.accept l).lasterr = s.lasterr := rfl
@[simp] theorem State.accept_errcmd (l : List PortEvent) : (s.accept l).errcmd = s.errcmd := rfl
@[simp] theorem State.accept_sStg (l : List PortEvent) : (s.accept l).sStg = s.sStg := rfl
@[simp] theorem State.accept_siStg (l : List PortEvent) : (s.accept l).siStg = s.siStg := rfl
@[simp] theorem State.accept_pStg (l : List PortEvent) : (s.accept l).pStg = s.pStg := rfl
@[simp] theorem State.accept_sAct (l : List PortEvent) : (s.accept l).sAct = s.sAct := rfl
@[simp] theorem State.accept_siAct (l : List PortEvent) : (s.accept l).siAct = s.siAct := rfl
@[simp] theorem State.accept_pAct (l : List PortEvent) : (s.accept l).pAct = s.pAct := rfl
@[simp] theorem State.accept_piAct (l : List PortEvent) : (s.accept l).piAct = s.piAct := rfl
@[simp] theorem State.accept_pending (l : List PortEvent) : (s.accept l).pending = l := rfl
@[simp] theorem State.accept_responses (l : List PortEvent) : (s.accept l).responses = s.responses := rfl
@[simp] theorem State.accept_draws (l : List PortEvent) : (s.accept l).draws = s.draws := rfl

/-! `respond` -/

@[simp] theorem State.respond_state (r : Response) : (s.respond r).state = s.state := rfl
@[simp] theorem State.respond_din (r : Response) : (s.respond r).din = s.din := rfl
@[simp] theorem State.respond_rk (r : Response) : (s.respond r).rk = s.rk := rfl
@[simp] theorem State.respond_strict (r : Response) : (s.respond r).strict = s.strict := rfl
@[simp] theorem State.respond_errie (r : Response) : (s.respond r).errie = s.errie := rfl
@[simp] theorem State.respond_cfgValid (r : Response) : (s.respond r).cfgValid = s.cfgValid := rfl
@[simp] theorem State.respond_eMap (r : Response) : (s.respond r).eMap = s.eMap := rfl
@[simp] theorem State.respond_eBlk (r : Response) : (s.respond r).eBlk = s.eBlk := rfl
@[simp] theorem State.respond_eCmd (r : Response) : (s.respond r).eCmd = s.eCmd := rfl
@[simp] theorem State.respond_eCfg (r : Response) : (s.respond r).eCfg = s.eCfg := rfl
@[simp] theorem State.respond_lasterr (r : Response) : (s.respond r).lasterr = s.lasterr := rfl
@[simp] theorem State.respond_errcmd (r : Response) : (s.respond r).errcmd = s.errcmd := rfl
@[simp] theorem State.respond_sStg (r : Response) : (s.respond r).sStg = s.sStg := rfl
@[simp] theorem State.respond_siStg (r : Response) : (s.respond r).siStg = s.siStg := rfl
@[simp] theorem State.respond_pStg (r : Response) : (s.respond r).pStg = s.pStg := rfl
@[simp] theorem State.respond_sAct (r : Response) : (s.respond r).sAct = s.sAct := rfl
@[simp] theorem State.respond_siAct (r : Response) : (s.respond r).siAct = s.siAct := rfl
@[simp] theorem State.respond_pAct (r : Response) : (s.respond r).pAct = s.pAct := rfl
@[simp] theorem State.respond_piAct (r : Response) : (s.respond r).piAct = s.piAct := rfl
@[simp] theorem State.respond_pending (r : Response) : (s.respond r).pending = s.pending := rfl
@[simp] theorem State.respond_responses (r : Response) : (s.respond r).responses = s.responses ++ [r] := rfl
@[simp] theorem State.respond_draws (r : Response) : (s.respond r).draws = s.draws := rfl

/-! `load` -/

@[simp] theorem State.load_state (l : List PortEvent) : (s.load l).state = s.state := rfl
@[simp] theorem State.load_din (l : List PortEvent) : (s.load l).din = s.din := rfl
@[simp] theorem State.load_rk (l : List PortEvent) : (s.load l).rk = s.rk := rfl
@[simp] theorem State.load_strict (l : List PortEvent) : (s.load l).strict = s.strict := rfl
@[simp] theorem State.load_errie (l : List PortEvent) : (s.load l).errie = s.errie := rfl
@[simp] theorem State.load_cfgValid (l : List PortEvent) : (s.load l).cfgValid = s.cfgValid := rfl
@[simp] theorem State.load_eMap (l : List PortEvent) : (s.load l).eMap = s.eMap := rfl
@[simp] theorem State.load_eBlk (l : List PortEvent) : (s.load l).eBlk = s.eBlk := rfl
@[simp] theorem State.load_eCmd (l : List PortEvent) : (s.load l).eCmd = s.eCmd := rfl
@[simp] theorem State.load_eCfg (l : List PortEvent) : (s.load l).eCfg = s.eCfg := rfl
@[simp] theorem State.load_lasterr (l : List PortEvent) : (s.load l).lasterr = s.lasterr := rfl
@[simp] theorem State.load_errcmd (l : List PortEvent) : (s.load l).errcmd = s.errcmd := rfl
@[simp] theorem State.load_sStg (l : List PortEvent) : (s.load l).sStg = s.sStg := rfl
@[simp] theorem State.load_siStg (l : List PortEvent) : (s.load l).siStg = s.siStg := rfl
@[simp] theorem State.load_pStg (l : List PortEvent) : (s.load l).pStg = s.pStg := rfl
@[simp] theorem State.load_sAct (l : List PortEvent) : (s.load l).sAct = s.sAct := rfl
@[simp] theorem State.load_siAct (l : List PortEvent) : (s.load l).siAct = s.siAct := rfl
@[simp] theorem State.load_pAct (l : List PortEvent) : (s.load l).pAct = s.pAct := rfl
@[simp] theorem State.load_piAct (l : List PortEvent) : (s.load l).piAct = s.piAct := rfl
@[simp] theorem State.load_pending (l : List PortEvent) : (s.load l).pending = s.pending ++ l := rfl
@[simp] theorem State.load_responses (l : List PortEvent) : (s.load l).responses = s.responses := rfl
@[simp] theorem State.load_draws (l : List PortEvent) : (s.load l).draws = s.draws := rfl

/-! `respondCutShort` -/

@[simp] theorem State.respondCutShort_state : (s.respondCutShort).state = s.state := rfl
@[simp] theorem State.respondCutShort_din : (s.respondCutShort).din = s.din := rfl
@[simp] theorem State.respondCutShort_rk : (s.respondCutShort).rk = s.rk := rfl
@[simp] theorem State.respondCutShort_strict : (s.respondCutShort).strict = s.strict := rfl
@[simp] theorem State.respondCutShort_errie : (s.respondCutShort).errie = s.errie := rfl
@[simp] theorem State.respondCutShort_cfgValid : (s.respondCutShort).cfgValid = s.cfgValid := rfl
@[simp] theorem State.respondCutShort_eMap : (s.respondCutShort).eMap = s.eMap := rfl
@[simp] theorem State.respondCutShort_eBlk : (s.respondCutShort).eBlk = s.eBlk := rfl
@[simp] theorem State.respondCutShort_eCmd : (s.respondCutShort).eCmd = s.eCmd := rfl
@[simp] theorem State.respondCutShort_eCfg : (s.respondCutShort).eCfg = s.eCfg := rfl
@[simp] theorem State.respondCutShort_lasterr : (s.respondCutShort).lasterr = s.lasterr := rfl
@[simp] theorem State.respondCutShort_errcmd : (s.respondCutShort).errcmd = s.errcmd := rfl
@[simp] theorem State.respondCutShort_sStg : (s.respondCutShort).sStg = s.sStg := rfl
@[simp] theorem State.respondCutShort_siStg : (s.respondCutShort).siStg = s.siStg := rfl
@[simp] theorem State.respondCutShort_pStg : (s.respondCutShort).pStg = s.pStg := rfl
@[simp] theorem State.respondCutShort_sAct : (s.respondCutShort).sAct = s.sAct := rfl
@[simp] theorem State.respondCutShort_siAct : (s.respondCutShort).siAct = s.siAct := rfl
@[simp] theorem State.respondCutShort_pAct : (s.respondCutShort).pAct = s.pAct := rfl
@[simp] theorem State.respondCutShort_piAct : (s.respondCutShort).piAct = s.piAct := rfl
@[simp] theorem State.respondCutShort_pending : (s.respondCutShort).pending = s.pending := rfl
@[simp] theorem State.respondCutShort_responses : (s.respondCutShort).responses = s.responses ++ [.cutShort (Config.cutShortResponse s.draws)] := rfl
@[simp] theorem State.respondCutShort_draws : (s.respondCutShort).draws = s.draws + 1 := rfl

/-! `resetBlock` -/

@[simp] theorem State.resetBlock_state : (s.resetBlock).state = State.reset.state := rfl
@[simp] theorem State.resetBlock_din : (s.resetBlock).din = State.reset.din := rfl
@[simp] theorem State.resetBlock_rk : (s.resetBlock).rk = State.reset.rk := rfl
@[simp] theorem State.resetBlock_strict : (s.resetBlock).strict = State.reset.strict := rfl
@[simp] theorem State.resetBlock_errie : (s.resetBlock).errie = State.reset.errie := rfl
@[simp] theorem State.resetBlock_cfgValid : (s.resetBlock).cfgValid = State.reset.cfgValid := rfl
@[simp] theorem State.resetBlock_eMap : (s.resetBlock).eMap = State.reset.eMap := rfl
@[simp] theorem State.resetBlock_eBlk : (s.resetBlock).eBlk = State.reset.eBlk := rfl
@[simp] theorem State.resetBlock_eCmd : (s.resetBlock).eCmd = State.reset.eCmd := rfl
@[simp] theorem State.resetBlock_eCfg : (s.resetBlock).eCfg = State.reset.eCfg := rfl
@[simp] theorem State.resetBlock_lasterr : (s.resetBlock).lasterr = State.reset.lasterr := rfl
@[simp] theorem State.resetBlock_errcmd : (s.resetBlock).errcmd = State.reset.errcmd := rfl
@[simp] theorem State.resetBlock_sStg : (s.resetBlock).sStg = State.reset.sStg := rfl
@[simp] theorem State.resetBlock_siStg : (s.resetBlock).siStg = State.reset.siStg := rfl
@[simp] theorem State.resetBlock_pStg : (s.resetBlock).pStg = State.reset.pStg := rfl
@[simp] theorem State.resetBlock_sAct : (s.resetBlock).sAct = State.reset.sAct := rfl
@[simp] theorem State.resetBlock_siAct : (s.resetBlock).siAct = State.reset.siAct := rfl
@[simp] theorem State.resetBlock_pAct : (s.resetBlock).pAct = State.reset.pAct := rfl
@[simp] theorem State.resetBlock_piAct : (s.resetBlock).piAct = State.reset.piAct := rfl
@[simp] theorem State.resetBlock_pending : (s.resetBlock).pending = s.pending := rfl
@[simp] theorem State.resetBlock_responses : (s.resetBlock).responses = s.responses := rfl
@[simp] theorem State.resetBlock_draws : (s.resetBlock).draws = s.draws := rfl

end Sys2Proof.Machine
end

