-- ==== Sys2Proof/Laws/Ops.lean ====
section
/-! SUPPORT. Sys2Proof/Laws/Ops.lean: what each shared operation can do, said once, for the operand checks, the error record,
the tables and the end of a command. -/

namespace Sys2Proof.Machine

/-! ### The indices of a table -/

theorem mem_nibbles (x : Nibble) : x ∈ nibbles := by
  revert x; decide

theorem nibbles_nodup : nibbles.Nodup := by decide

theorem nibbles_all_iff (p : Nibble → Bool) : nibbles.all p = true ↔ ∀ x, p x = true := by
  simp [List.all_eq_true, mem_nibbles]

/-! ### Tables -/

theorem update_eq_set (t : Table) (n v : Nibble) : update t n v = t.set n.toNat v n.isLt := rfl

@[simp] theorem lookup_update_self (t : Table) (n v : Nibble) : lookup (update t n v) n = v := by
  simp [lookup, update]

theorem lookup_update_of_ne (t : Table) {m n : Nibble} (v : Nibble) (h : m ≠ n) :
    lookup (update t n v) m = lookup t m := by
  have h' : n.toNat ≠ m.toNat := fun e => h (BitVec.eq_of_toNat_eq e.symm)
  simp [lookup, update, h']

/-- Two tables with the same entries are the same table. -/
theorem table_ext {t u : Table} (h : ∀ n, lookup t n = lookup u n) : t = u := by
  apply Vector.ext
  intro i hi
  have := h (BitVec.ofNat 4 i)
  simpa [lookup, Nat.mod_eq_of_lt hi] using this

/-! ### The error record -/

@[simp] theorem errorBit_raiseError (s : State) (e e' : ErrorKind) (w : Word) :
    (s.raiseError e w).errorBit e' = (s.errorBit e' || decide (e = e')) := by
  cases e' <;> rfl

theorem anyError_eq_true_iff (s : State) : s.anyError = true ↔ ∃ e, s.errorBit e = true := by
  constructor
  · intro h
    simp only [State.anyError, Bool.or_eq_true] at h
    obtain ((h | h) | h) | h := h
    exacts [⟨.invalidMapping, h⟩, ⟨.invalidBlockSize, h⟩, ⟨.illegalCommand, h⟩, ⟨.notConfigured, h⟩]
  · rintro ⟨e, h⟩
    cases e <;> simp_all [State.anyError, State.errorBit]

@[simp] theorem anyError_raiseError (s : State) (e : ErrorKind) (w : Word) : (s.raiseError e w).anyError = true :=
  (anyError_eq_true_iff _).2 ⟨e, by simp⟩

@[simp] theorem anyError_clearErrors (s : State) : s.clearErrors.anyError = false := rfl

@[simp] theorem errorBit_clearErrors (s : State) (e : ErrorKind) : s.clearErrors.errorBit e = false := by
  cases e <;> rfl

theorem code_ne_zero (e : ErrorKind) : e.code ≠ 0 := by cases e <;> decide

theorem code_injective {e e' : ErrorKind} (h : e.code = e'.code) : e = e' := by
  cases e <;> cases e' <;> first | rfl | exact absurd h (by decide)

/-! What an error leaves, kind by kind, as one record update (R183). -/

theorem raiseError_invalidMapping (s : State) (w : Word) :
    s.raiseError .invalidMapping w = { s with eMap := true, lasterr := 1, errcmd := w } := by
  simp [State.raiseError, ErrorKind.code]

theorem raiseError_invalidBlockSize (s : State) (w : Word) :
    s.raiseError .invalidBlockSize w = { s with eBlk := true, lasterr := 2, errcmd := w } := by
  simp [State.raiseError, ErrorKind.code]

theorem raiseError_illegalCommand (s : State) (w : Word) :
    s.raiseError .illegalCommand w = { s with eCmd := true, lasterr := 3, errcmd := w } := by
  simp [State.raiseError, ErrorKind.code]

theorem raiseError_notConfigured (s : State) (w : Word) :
    s.raiseError .notConfigured w = { s with eCfg := true, lasterr := 4, errcmd := w } := by
  simp [State.raiseError, ErrorKind.code]

/-! ### Operand checks -/

theorem ent_of_nibble {s : State} (h : s.din.extractLsb' 4 28 = 0) : ent s = .ok (s.din.extractLsb' 0 4) :=
  if_pos h

theorem ent_of_wide {s : State} (h : s.din.extractLsb' 4 28 ≠ 0) : ent s = .error .invalidMapping := if_neg h

theorem blk_of_fits {s : State} (h : s.strict = false ∨ s.din.extractLsb' 16 16 = 0) :
    blk s = .ok (s.din.extractLsb' 0 16) := by
  refine if_neg fun hc => ?_
  rw [Bool.and_eq_true, decide_eq_true_eq] at hc
  obtain h | h := h
  · exact absurd (h ▸ hc.1) Bool.false_ne_true
  · exact hc.2 h

theorem blk_of_strict_wide {s : State} (hs : s.strict = true) (h : s.din.extractLsb' 16 16 ≠ 0) :
    blk s = .error .invalidBlockSize :=
  if_pos (by rw [hs, decide_eq_true h]; rfl)

theorem configured_of_valid {s : State} (h : s.cfgValid = true) : configured s = .ok () := if_pos h

theorem configured_of_invalid {s : State} (h : s.cfgValid = false) : configured s = .error .notConfigured :=
  if_neg (by rw [h]; exact Bool.false_ne_true)

theorem keyIndex_of_lt {i : Nibble} (h : i.toNat < 5) : keyIndex i = .ok ⟨i.toNat, h⟩ := by simp [keyIndex, h]

theorem keyIndex_of_ge {i : Nibble} (h : 5 ≤ i.toNat) : keyIndex i = .error .illegalCommand := by
  simp [keyIndex, Nat.not_lt.2 h]

/-! ### The end of a command -/

@[simp] theorem endCommand_ok (w : Word) (s t : State) : endCommand w s (.ok t) = .next t := rfl

@[simp] theorem endCommand_error (w : Word) (s : State) (e : ErrorKind) :
    endCommand w s (.error e) = .next (s.raiseError e w) := rfl

/-- All a command's end can do: the command's result, or its error recorded on the state before it. -/
theorem endCommand_eq_next {w : Word} {s t : State} {r : Except ErrorKind State} (h : endCommand w s r = .next t) :
    r = .ok t ∨ ∃ e, r = .error e ∧ t = s.raiseError e w := by
  cases r with
  | ok u => exact .inl (by simpa using h)
  | error e => exact .inr ⟨e, rfl, by simpa using h.symm⟩

/-- A command's end always answers a next state: an error is recorded, and the block goes on. -/
theorem endCommand_completes (w : Word) (s : State) (r : Except ErrorKind State) :
    ∃ t, endCommand w s r = .next t := by
  cases r <;> exact ⟨_, rfl⟩

end Sys2Proof.Machine
end

