-- ==== Sys2Proof/Laws/Exec.lean ====
section
/-! SUPPORT. Sys2Proof/Laws/Exec.lean: each command as its one call of `endCommand`, so that no proof unfolds the dispatch or a
meaning, and what no command looks at. -/

namespace Sys2Proof.Machine

variable (s : State)

theorem exec_nop : exec .nop s =
    endCommand (encode .nop) s (.ok s) := rfl

theorem exec_ldst : exec .ldst s =
    endCommand (encode .ldst) s ((blk s).map fun v => s.setState v) := rfl

theorem exec_wrrk (i : Nibble) : exec (.wrrk i) s =
    endCommand (encode (.wrrk i)) s ((keyIndex i).bind fun k => (blk s).map fun v => s.setRk k v) := rfl

theorem exec_clrerr : exec .clrerr s =
    endCommand (encode .clrerr) s (.ok s.clearErrors) := rfl

theorem exec_wrs (n : Nibble) : exec (.wrs n) s =
    endCommand (encode (.wrs n)) s ((ent s).map fun v => s.setSStg n v) := rfl

theorem exec_wrsi (n : Nibble) : exec (.wrsi n) s =
    endCommand (encode (.wrsi n)) s ((ent s).map fun v => s.setSiStg n v) := rfl

theorem exec_wrp (n : Nibble) : exec (.wrp n) s =
    endCommand (encode (.wrp n)) s ((ent s).map fun v => s.setPStg n v) := rfl

theorem exec_commit : exec .commit s =
    if valid s.sStg s.siStg s.pStg then endCommand (encode .commit) s (.ok s.activate)
    else endCommand (encode .commit) s.invalidate (.error .invalidMapping) := rfl

theorem exec_sub : exec .sub s =
    endCommand (encode .sub) s ((configured s).map fun _ => s.setState (substitute s.state s.sAct)) := rfl

theorem exec_subi : exec .subi s =
    endCommand (encode .subi) s ((configured s).map fun _ => s.setState (substitute s.state s.siAct)) := rfl

theorem exec_perm : exec .perm s =
    endCommand (encode .perm) s ((configured s).map fun _ => s.setState (permute s.state s.pAct)) := rfl

theorem exec_permi : exec .permi s =
    endCommand (encode .permi) s ((configured s).map fun _ => s.setState (permute s.state s.piAct)) := rfl

theorem exec_kmix (i : Nibble) : exec (.kmix i) s =
    endCommand (encode (.kmix i)) s ((keyIndex i).map fun k => s.setState (keyMix s.state s.rk[k])) := rfl

theorem exec_kmixd : exec .kmixd s =
    endCommand (encode .kmixd) s ((blk s).map fun k => s.setState (keyMix s.state k)) := rfl

theorem exec_enc : exec .enc s =
    endCommand (encode .enc) s ((configured s).map fun _ => s.setState (encrypt s.rk s.sAct s.pAct s.state)) := rfl

theorem exec_dec : exec .dec s =
    endCommand (encode .dec) s ((configured s).map fun _ => s.setState (decrypt s.rk s.siAct s.piAct s.state)) := rfl

/-- No command looks at what waits at the port or at what it has answered: with other values there it does the same to
everything else. -/
theorem exec_host (i : Instr) {s t : State} (h : exec i s = .next t) (p : List PortEvent) (r : List Response) :
    exec i { s with pending := p, responses := r } = .next { t with pending := p, responses := r } := by
  have hb : blk { s with pending := p, responses := r } = blk s := rfl
  have he : ent { s with pending := p, responses := r } = ent s := rfl
  have hc : configured { s with pending := p, responses := r } = configured s := rfl
  cases i
  case nop => cases h; rfl
  case clrerr => cases h; rfl
  case commit =>
    rw [exec_commit] at h ⊢
    split at h
    · rename_i hv; rw [if_pos hv]; cases h; rfl
    · rename_i hv; rw [if_neg hv]; cases h; rfl
  case wrrk k =>
    rw [exec_wrrk] at h ⊢
    rw [hb]
    cases hk : keyIndex k <;> cases hx : blk s <;> rw [hk, hx] at h <;> cases h <;> rfl
  case kmix k =>
    rw [exec_kmix] at h ⊢
    cases hk : keyIndex k <;> rw [hk] at h <;> cases h <;> rfl
  case ldst => rw [exec_ldst] at h ⊢; rw [hb]; cases hx : blk s <;> rw [hx] at h <;> cases h <;> rfl
  case kmixd => rw [exec_kmixd] at h ⊢; rw [hb]; cases hx : blk s <;> rw [hx] at h <;> cases h <;> rfl
  case wrs => rw [exec_wrs] at h ⊢; rw [he]; cases hx : ent s <;> rw [hx] at h <;> cases h <;> rfl
  case wrsi => rw [exec_wrsi] at h ⊢; rw [he]; cases hx : ent s <;> rw [hx] at h <;> cases h <;> rfl
  case wrp => rw [exec_wrp] at h ⊢; rw [he]; cases hx : ent s <;> rw [hx] at h <;> cases h <;> rfl
  case sub => rw [exec_sub] at h ⊢; rw [hc]; cases hx : configured s <;> rw [hx] at h <;> cases h <;> rfl
  case subi => rw [exec_subi] at h ⊢; rw [hc]; cases hx : configured s <;> rw [hx] at h <;> cases h <;> rfl
  case perm => rw [exec_perm] at h ⊢; rw [hc]; cases hx : configured s <;> rw [hx] at h <;> cases h <;> rfl
  case permi => rw [exec_permi] at h ⊢; rw [hc]; cases hx : configured s <;> rw [hx] at h <;> cases h <;> rfl
  case enc => rw [exec_enc] at h ⊢; rw [hc]; cases hx : configured s <;> rw [hx] at h <;> cases h <;> rfl
  case dec => rw [exec_dec] at h ⊢; rw [hc]; cases hx : configured s <;> rw [hx] at h <;> cases h <;> rfl

end Sys2Proof.Machine
end

