-- ==== Sys2Proof/Laws/PerInstr.lean ====
section
/-! SUPPORT. Sys2Proof/Laws/PerInstr.lean: facts about each command as syntax, one lemma per constructor. -/

namespace Sys2Proof.Laws

/-- Rule R74's predicate calls the word of a command legal exactly where the command is well-formed. -/
def LegalWord.Statement (i : Instr) : Prop := legal (encode i) = i.wellFormed

theorem LegalWord.nop : LegalWord.Statement .nop := by unfold LegalWord.Statement; decide
theorem LegalWord.ldst : LegalWord.Statement .ldst := by unfold LegalWord.Statement; decide
theorem LegalWord.wrrk (i : Nibble) : LegalWord.Statement (.wrrk i) := by
  unfold LegalWord.Statement; revert i; decide
theorem LegalWord.wrs (n : Nibble) : LegalWord.Statement (.wrs n) := by
  unfold LegalWord.Statement; revert n; decide
theorem LegalWord.wrsi (n : Nibble) : LegalWord.Statement (.wrsi n) := by
  unfold LegalWord.Statement; revert n; decide
theorem LegalWord.wrp (n : Nibble) : LegalWord.Statement (.wrp n) := by
  unfold LegalWord.Statement; revert n; decide
theorem LegalWord.commit : LegalWord.Statement .commit := by unfold LegalWord.Statement; decide
theorem LegalWord.clrerr : LegalWord.Statement .clrerr := by unfold LegalWord.Statement; decide
theorem LegalWord.sub : LegalWord.Statement .sub := by unfold LegalWord.Statement; decide
theorem LegalWord.subi : LegalWord.Statement .subi := by unfold LegalWord.Statement; decide
theorem LegalWord.perm : LegalWord.Statement .perm := by unfold LegalWord.Statement; decide
theorem LegalWord.permi : LegalWord.Statement .permi := by unfold LegalWord.Statement; decide
theorem LegalWord.kmix (i : Nibble) : LegalWord.Statement (.kmix i) := by
  unfold LegalWord.Statement; revert i; decide
theorem LegalWord.kmixd : LegalWord.Statement .kmixd := by unfold LegalWord.Statement; decide
theorem LegalWord.enc : LegalWord.Statement .enc := by unfold LegalWord.Statement; decide
theorem LegalWord.dec : LegalWord.Statement .dec := by unfold LegalWord.Statement; decide

end Sys2Proof.Laws
end

