-- ==== Sys2Proof/Laws/Step.lean ====
section
/-! SUPPORT. Sys2Proof/Laws/Step.lean: what the port and a step can do, said once. -/

namespace Sys2Proof.Machine

theorem step_cons {s : State} {e : PortEvent} {rest : List PortEvent} (h : s.pending = e :: rest) :
    step s = serve e (s.accept rest) := by
  unfold step; rw [h]

theorem issue_of_decode_ok {w : Word} {i : Instr} (h : decode w = .ok i) (s : State) : issue w s = exec i s := by
  unfold issue; rw [h]

theorem issue_of_decode_error {w : Word} {e : DecodeError} (h : decode w = .error e) (s : State) :
    issue w s = .next (s.raiseError .illegalCommand w) := by
  unfold issue; rw [h]

theorem issue_host (w : Word) {s t : State} (h : issue w s = .next t) (p : List PortEvent) (r : List Response) :
    issue w { s with pending := p, responses := r } = .next { t with pending := p, responses := r } := by
  cases hd : decode w with
  | ok i => rw [issue_of_decode_ok hd] at h ⊢; exact exec_host i h p r
  | error e => rw [issue_of_decode_error hd] at h ⊢; cases h; rfl

@[simp] theorem completeWrite_next (t : State) : completeWrite (.next t) = .next (t.respond .completion) := rfl

theorem completeWrite_eq_next {o : Host.Outcome State Fault Refusal} {t : State} (h : completeWrite o = .next t) :
    ∃ u, o = .next u ∧ t = u.respond .completion := by
  cases o with
  | next u => exact ⟨u, rfl, by simpa [completeWrite] using h.symm⟩
  | fault f => cases h
  | refused r => cases h

theorem guardAccess_of_admitted {a : Access} (h : a.offset < Config.windowSize ∧ a.bytes = 4 ∧ a.offset % 4 = 0)
    (o : Host.Outcome State Fault Refusal) : guardAccess a o = o := by
  simp [guardAccess, Nat.not_le.2 h.1, h.2.1, h.2.2]

theorem guardAccess_eq_next {a : Access} {o : Host.Outcome State Fault Refusal} {t : State}
    (h : guardAccess a o = .next t) :
    (a.offset < Config.windowSize ∧ a.bytes = 4 ∧ a.offset % 4 = 0) ∧ o = .next t := by
  unfold guardAccess at h
  split at h
  · cases h
  · rename_i h1
    split at h
    · rename_i h2
      exact ⟨⟨Nat.not_le.1 h1, h2⟩, h⟩
    · cases h

/-- What serving one event can do where it answers a next state: a read answered, a register written, a command issued,
or a reset. -/
theorem serve_eq_next {e : PortEvent} {s t : State} (h : serve e s = .next t) :
    (∃ a, e = .read a ∧ e.admitted = true ∧ t = s.respond (.value (readReg s a.offset))) ∨
    (∃ a v, e = .write a v ∧ e.admitted = true ∧ a.offset ≠ cmdOffset ∧
      t = (writeReg s a.offset v).respond .completion) ∨
    (∃ w u, e = .write ⟨cmdOffset, 4⟩ w ∧ issue w s = .next u ∧ t = u.respond .completion) ∨
    (e = .reset ∧ t = s.resetBlock) ∨
    (∃ w, e = .resetDuring w ∧ t = s.resetBlock.respondCutShort) := by
  cases e with
  | read a =>
    obtain ⟨ha, ho⟩ := guardAccess_eq_next h
    exact .inl ⟨a, rfl, by simpa [PortEvent.admitted] using ha, by simpa using ho.symm⟩
  | write a v =>
    obtain ⟨ha, ho⟩ := guardAccess_eq_next h
    unfold serveWrite at ho
    split at ho
    · rename_i hc
      obtain ⟨u, hu, rfl⟩ := completeWrite_eq_next ho
      obtain ⟨off, bytes⟩ := a
      obtain ⟨-, hb, -⟩ := ha
      simp only at hc hb
      subst hc hb
      exact .inr (.inr (.inl ⟨v, u, rfl, hu, rfl⟩))
    · rename_i hc
      exact .inr (.inl ⟨a, v, rfl, by simpa [PortEvent.admitted] using ha, hc, by simpa using ho.symm⟩)
  | straddle below bytes => cases h
  | reset => exact .inr (.inr (.inr (.inl ⟨rfl, by simpa [serve] using h.symm⟩)))
  | resetDuring w => exact .inr (.inr (.inr (.inr ⟨w, rfl, by simpa [serve] using h.symm⟩)))

/-- A CMD write issues its word, and completes when the command has (R54, R58, R70). -/
theorem serve_write_cmd (w : Word) (s : State) : serve (.write ⟨0x0C, 4⟩ w) s = completeWrite (issue w s) := rfl

/-! ### Bus addresses -/

theorem windowOffset_eq_some {base addr off : Nat} :
    windowOffset base addr = some off ↔ off < Config.windowSize ∧ addr = base + off := by
  unfold windowOffset
  split <;> simp <;> omega

/-- All an access on the bus can be to the block at `base`: an access at an offset of the window, one that runs into the
window from below, or nothing. -/
theorem accessAtBlock_cases (base addr bytes : Nat) (inside : Access → PortEvent) :
    (∃ off, off < Config.windowSize ∧ addr = base + off ∧ accessAtBlock base addr bytes inside = some (inside ⟨off, bytes⟩)) ∨
    (addr < base ∧ base < addr + bytes ∧ accessAtBlock base addr bytes inside = some (.straddle (base - addr) bytes)) ∨
    ((addr + bytes ≤ base ∨ base + Config.windowSize ≤ addr) ∧ accessAtBlock base addr bytes inside = none) := by
  unfold accessAtBlock
  cases h : windowOffset base addr with
  | some off =>
    obtain ⟨h1, h2⟩ := windowOffset_eq_some.1 h
    exact .inl ⟨off, h1, h2, rfl⟩
  | none =>
    have hn : ¬(base ≤ addr ∧ addr < base + Config.windowSize) := by
      intro hw; simp [windowOffset, hw] at h
    by_cases hs : addr < base ∧ base < addr + bytes
    · exact .inr (.inl ⟨hs.1, hs.2, by simp [hs]⟩)
    · exact .inr (.inr ⟨by omega, by simp [hs]⟩)

@[simp] theorem atBlock_nil (base : Nat) : atBlock base [] = [] := rfl

theorem atBlock_cons (base : Nat) (e : BusEvent) (bus : List BusEvent) :
    atBlock base (e :: bus) = (e.toPort base).toList ++ atBlock base bus := by
  unfold atBlock
  cases h : e.toPort base <;> simp [h]

/-! ### Several masters -/

@[simp] theorem interleaves_nil (queues : List (List PortEvent)) :
    interleaves queues [] = true ↔ ∀ q ∈ queues, q = [] := by
  simp [interleaves]

/-- A merged order begins with the head of some master's queue and goes on with what that leaves. -/
theorem interleaves_cons (queues : List (List PortEvent)) (e : PortEvent) (merged : List PortEvent) :
    interleaves queues (e :: merged) = true ↔
      ∃ (m : Nat) (h : m < queues.length) (rest : List PortEvent),
        queues[m] = e :: rest ∧ interleaves (queues.set m rest) merged = true := by
  simp only [interleaves, List.any_eq_true, List.mem_range]
  constructor
  · rintro ⟨m, hm, h⟩
    rw [List.getElem?_eq_getElem hm] at h
    split at h
    · rename_i x rest hq
      simp only [Bool.and_eq_true, decide_eq_true_eq] at h
      obtain ⟨rfl, h⟩ := h
      exact ⟨m, hm, rest, Option.some.inj hq, h⟩
    · cases h
  · rintro ⟨m, hm, rest, hq, h⟩
    exact ⟨m, hm, by simp [List.getElem?_eq_getElem hm, hq, h]⟩

@[simp] theorem runSteps_zero (s : State) : runSteps 0 s = .next s := rfl

theorem runSteps_succ_of_next {s t : State} (h : step s = .next t) (k : Nat) :
    runSteps (k + 1) s = runSteps k t := by
  simp only [runSteps, h]

/-- Where a run of `k + 1` steps ends in a next state, its first step did, and the rest goes on from there. -/
theorem runSteps_succ_eq_next {k : Nat} {s t : State} (h : runSteps (k + 1) s = .next t) :
    ∃ u, step s = .next u ∧ runSteps k u = .next t := by
  rw [runSteps] at h
  split at h
  · rename_i u hu; exact ⟨u, hu, h⟩
  · cases h
  · cases h

/-! ### Programs -/

@[simp] theorem andThen_next {α β : Type} (s : α) (f : α → Host.Outcome β Fault Refusal) :
    andThen (.next s) f = f s := rfl

theorem andThen_eq_next {α β : Type} {o : Host.Outcome α Fault Refusal} {f : α → Host.Outcome β Fault Refusal} {t : β} :
    andThen o f = .next t ↔ ∃ s, o = .next s ∧ f s = .next t := by
  cases o <;> simp [andThen]

/-- A run of `j + k` steps is a run of `j` and then one of `k`. -/
theorem runSteps_add (j k : Nat) (s : State) : runSteps (j + k) s = andThen (runSteps j s) (runSteps k) := by
  induction j generalizing s with
  | zero => simp
  | succ j ih =>
    rw [Nat.succ_add]
    simp only [runSteps]
    split
    · exact ih _
    · rfl
    · rfl

theorem runWaiting_of_nil {s : State} (h : s.pending = []) : runWaiting s = .next s := by
  simp [runWaiting, h]

/-- With nothing waiting a program is `p.length` steps. -/
theorem runProgram_of_nil {s : State} (h : s.pending = []) (p : List PortEvent) :
    runProgram p s = runSteps p.length (s.load p) := by
  simp [runProgram, runWaiting_of_nil h]

/-- A program's run ends where its observation says, and with the values read since it began. -/
theorem observe_eq_next {p : List PortEvent} {s : State} {o : Observation} :
    observe p s = .next o ↔
      ∃ u, runWaiting s = .next u ∧ runSteps p.length (u.load p) = .next o.final ∧
        o.values = observed (o.final.responses.drop u.responses.length) := by
  simp only [observe, andThen_eq_next]
  constructor
  · rintro ⟨u, hu, t, ht, h⟩
    cases h
    exact ⟨u, hu, ht, rfl⟩
  · rintro ⟨u, hu, ht, hv⟩
    exact ⟨u, hu, o.final, ht, by rw [← hv]⟩

@[simp] theorem observed_nil : observed [] = [] := rfl

@[simp] theorem observed_append (xs ys : List Response) : observed (xs ++ ys) = observed xs ++ observed ys := by
  induction xs with
  | nil => rfl
  | cons x xs ih => cases x <;> simp [observed, ih]

/-- The host's own run of the machine is `runSteps`. -/
theorem runSteps_eq_core_run (k : Nat) (s : State) : runSteps k s = Sys2Proof.core.run k s := by
  induction k generalizing s with
  | zero => rfl
  | succ k ih =>
    cases hs : step s with
    | next t =>
      have hc : Sys2Proof.core.step s = .next t := hs
      simp only [runSteps_succ_of_next hs, Host.Core.run, hc, ih]; rfl
    | fault f =>
      have hc : Sys2Proof.core.step s = .fault f := hs
      simp only [runSteps, Host.Core.run, hs, hc]; rfl
    | refused r =>
      have hc : Sys2Proof.core.step s = .refused r := hs
      simp only [runSteps, Host.Core.run, hs, hc]; rfl

/-! ### A chain of commands -/

@[simp] theorem execAll_nil (s : State) : execAll [] s = .next s := rfl

theorem execAll_cons_of_next {i : Instr} {s t : State} (h : exec i s = .next t) (is : List Instr) :
    execAll (i :: is) s = execAll is t := by
  rw [execAll, h]

end Sys2Proof.Machine
end

