-- ==== Sys2Proof/Tests/Slice0.lean ====
section
/-! SUPPORT. Sys2Proof/Tests/Slice0.lean: checks of the model against the spec's own examples and vectors (95_test_vectors.md
and the examples of the command rules), and a witness for every statement that has hypotheses. -/

namespace Sys2Proof.Tests

open Sys2Proof.Machine

/-- The state of a step's outcome, where it has one. -/
def nextOf : Host.Outcome State Fault Refusal → Option State
  | .next s => some s
  | .fault _ => none
  | .refused _ => none

/-- Reset with `STATE` and `DIN` set. -/
def withRegs (st : Block) (d : Word) : State := { State.reset with state := st, din := d }

/-- The keys of 95_test_vectors.md ("§8 keys"). -/
def keys8 : KeySchedule := #v[0x1234, 0x5678, 0x9ABC, 0xDEF0, 0x1357]

/-- The rotation P-box `ROT` of 95_test_vectors.md section 2.1. -/
def rot : Table := #v[1, 2, 3, 4, 5, 6, 7, 8, 9, 10, 11, 12, 13, 14, 15, 0]

/-- Its inverse `ROT_INV`. -/
def rotInv : Table := #v[15, 0, 1, 2, 3, 4, 5, 6, 7, 8, 9, 10, 11, 12, 13, 14]

/-- A configured state whose P-box is not its own inverse. -/
def rotState : State := { State.reset with state := 0x0001, pStg := rot, pAct := rot, piAct := rotInv, rk := keys8 }

/-- Reset with a staging S-box that holds the value 4 twice (V-CFG-4). -/
def badStaging : State := { State.reset with sStg := update sRef 0 4 }

/-! ### Well-formedness: an ill-formed term for each check -/

theorem test_wellFormed_wrrk_refuses : (Instr.wrrk 5).wellFormed = false ∧ (Instr.wrrk 4).wellFormed = true := by decide
theorem test_wellFormed_kmix_refuses : (Instr.kmix 15).wellFormed = false ∧ (Instr.kmix 4).wellFormed = true := by decide

/-! ### Decoding: words written out from 30_encoding.md section 3 as RSV, IDX, OPC -/

theorem test_decode_nop : decode 0b00000000000000000000_0000_00000000 = .ok .nop := by decide
theorem test_decode_ldst : decode 0b00000000000000000000_0000_00000001 = .ok .ldst := by decide
theorem test_decode_wrrk : decode 0b00000000000000000000_0100_00000010 = .ok (.wrrk 4) := by decide
theorem test_decode_wrs : decode 0b00000000000000000000_1111_00000011 = .ok (.wrs 15) := by decide
theorem test_decode_wrsi : decode 0b00000000000000000000_1010_00000100 = .ok (.wrsi 10) := by decide
theorem test_decode_wrp : decode 0b00000000000000000000_0001_00000101 = .ok (.wrp 1) := by decide
theorem test_decode_commit : decode 0b00000000000000000000_0000_00000110 = .ok .commit := by decide
theorem test_decode_clrerr : decode 0b00000000000000000000_0000_00000111 = .ok .clrerr := by decide
theorem test_decode_sub : decode 0b00000000000000000000_0000_00010000 = .ok .sub := by decide
theorem test_decode_subi : decode 0b00000000000000000000_0000_00010001 = .ok .subi := by decide
theorem test_decode_perm : decode 0b00000000000000000000_0000_00010010 = .ok .perm := by decide
theorem test_decode_permi : decode 0b00000000000000000000_0000_00010011 = .ok .permi := by decide
theorem test_decode_kmix : decode 0b00000000000000000000_0011_00010100 = .ok (.kmix 3) := by decide
theorem test_decode_kmixd : decode 0b00000000000000000000_0000_00010101 = .ok .kmixd := by decide
theorem test_decode_enc : decode 0b00000000000000000000_0000_00100000 = .ok .enc := by decide
theorem test_decode_dec : decode 0b00000000000000000000_0000_00100001 = .ok .dec := by decide
/-- 95_test_vectors.md section 2.6. -/
theorem test_decode_refuses :
    decode 0x00001000 = .error .reservedBits ∧ decode 0x80000020 = .error .reservedBits ∧
    decode 0xFFFFFFFF = .error .reservedBits ∧ decode 0x00000008 = .error .reservedOpcode ∧
    decode 0x00000016 = .error .reservedOpcode ∧ decode 0x00000022 = .error .reservedOpcode ∧
    decode 0x000000FF = .error .reservedOpcode ∧ decode 0x00000502 = .error .keyIndexOutOfRange ∧
    decode 0x00000514 = .error .keyIndexOutOfRange ∧ decode 0x00000110 = .error .indexNotZero ∧
    decode 0x00000106 = .error .indexNotZero := by decide
theorem test_decodeTableWord : decodeTableWord 32 0x402 = some (.wrrk 4) := by decide
theorem test_withFetchWord_runs :
    (nextOf (step (State.reset.withFetchWord 32 0x20))).map (·.state) = some 0xE0BB := by decide +kernel

/-! ### One step of each command (the examples of the command rules; 95_test_vectors.md sections 2.2 to 2.5) -/

theorem test_nop : nextOf (exec .nop rotState) = some rotState := by decide
theorem test_ldst_masks : (nextOf (exec .ldst (withRegs 0 0xFFFF1234))).map (·.state) = some 0x1234 := by decide
theorem test_ldst_strict :
    (nextOf (exec .ldst { withRegs 0 0x00010000 with strict := true })).map
      (fun t => (t.state, t.statusWord, t.errcmd)) = some (0, 0x221, 1) := by decide
theorem test_wrrk : (nextOf (exec (.wrrk 4) (withRegs 0 0x1357))).map (·.rk.toList)
    = some [0, 0, 0, 0, 0x1357] := by decide
theorem test_wrs_out_of_range :
    (nextOf (exec (.wrs 3) (withRegs 0 0x10))).map (fun t => (lookup t.sStg 3, t.statusWord, t.errcmd))
      = some (1, 0x111, 0x303) := by decide
theorem test_wrs : (nextOf (exec (.wrs 0) (withRegs 0 0x4))).map (fun t => (lookup t.sStg 0, lookup t.sAct 0))
    = some (4, 0xE) := by decide
theorem test_wrsi : (nextOf (exec (.wrsi 15) (withRegs 0 0xE))).map (fun t => (lookup t.siStg 15, lookup t.sStg 15))
    = some (0xE, 7) := by decide
theorem test_wrp : (nextOf (exec (.wrp 1) (withRegs 0 0x0))).map (fun t => (lookup t.pStg 1, lookup t.pAct 1))
    = some (0, 4) := by decide
theorem test_commit_derives_inverse :
    (nextOf (exec .commit { State.reset with pStg := rot, cfgValid := false })).map
      (fun t => (t.piAct, t.statusWord)) = some (rotInv, 1) := by decide +kernel
theorem test_commit_refuses_duplicate :
    (nextOf (exec .commit badStaging)).map (fun t => (lookup t.sAct 0, t.statusWord, t.errcmd))
      = some (0xE, 0x110, 6) := by decide +kernel
theorem test_clrerr :
    (nextOf (exec .clrerr { State.reset with eCmd := true, eMap := true, lasterr := 1, cfgValid := false })).map
      (fun t => (t.statusWord, t.errcmd)) = some (0, 0) := by decide
theorem test_sub : (nextOf (exec .sub (withRegs 0x1234 0))).map (·.state) = some 0x4D12 := by decide
theorem test_sub_not_configured :
    (nextOf (exec .sub { withRegs 0x1234 0 with cfgValid := false })).map (fun t => (t.state, t.statusWord))
      = some (0x1234, 0x480) := by decide
theorem test_subi : (nextOf (exec .subi (withRegs 0x1234 0))).map (·.state) = some 0x3481 := by decide
theorem test_perm : (nextOf (exec .perm (withRegs 0x1234 0))).map (·.state) = some 0x016A := by decide
theorem test_perm_rot : (nextOf (exec .perm rotState)).map (·.state) = some 0x0002 := by decide
theorem test_permi_rot : (nextOf (exec .permi rotState)).map (·.state) = some 0x8000 := by decide
theorem test_kmix : (nextOf (exec (.kmix 4) { rotState with cfgValid := false })).map (·.state) = some 0x1356 := by
  decide
theorem test_kmixd : (nextOf (exec .kmixd (withRegs 0x4D12 0x5678))).map (·.state) = some 0x1B6A := by decide
theorem test_enc_reference :
    (nextOf (exec .enc { State.reset with rk := keys8 })).map (·.state) = some 0x089C := by decide +kernel
theorem test_enc_rot : (nextOf (exec .enc { rotState with state := 0x1234 })).map (·.state) = some 0x4C61 := by
  decide +kernel
theorem test_dec_reference :
    (nextOf (exec .dec { State.reset with rk := keys8, state := 0x1234 })).map (·.state) = some 0x7F02 := by
  decide +kernel
theorem test_dec_rot : (nextOf (exec .dec { rotState with state := 0x4C61 })).map (·.state) = some 0x1234 := by
  decide +kernel

/-! ### The port, the interrupt line and the assembler -/

theorem test_priority_illegal_only :
    (nextOf (step { State.reset with strict := true, din := 0x00010000, pending := [busWrite 0x0C 0x702] })).map
      (fun t => (t.statusWord, t.errcmd)) = some (0x341, 0x702) := by decide
theorem test_irq_rises :
    (nextOf (step { State.reset with errie := true, pending := [busWrite 0x0C 0x08] })).map (·.errIrq) = some true := by
  decide
theorem test_reserved_bits_of_ctrl :
    (nextOf (step { State.reset with pending := [busWrite 0x00 0xFFFFFFFE] })).map (·.ctrlWord) = some 2 := by decide
theorem test_read_state_is_observed :
    (nextOf (step { rotState with pending := [busRead 0x10] })).map (fun t => observed t.responses) = some [1] := by
  decide
theorem test_material_of_digits :
    keySlice (materialOfDigits #v[1, 2, 3, 4, 5, 6, 7, 8, 9, 10, 11, 12, 13, 14, 15, 0, 1, 3, 5, 7]) 3 = 0xDEF0 := by
  decide
theorem test_parse_comment : parseLine "KMIX 3 ; mix" = some (some (.command (.kmix 3))) := by decide
theorem test_parse_write : (parseLine "wr DIN, 0x10").map (·.map Stmt.expand) = some (some [busWrite 8 16]) := by decide
theorem test_two_masters_may_interleave :
    interleaves [[busWrite 8 1, busWrite 0xC 1], [busWrite 8 2]] [busWrite 8 1, busWrite 8 2, busWrite 0xC 1] = true := by
  decide

/-! ### Witnesses: states and operands that meet the hypotheses of the statements -/

/-- The tables of `rotState` have the invariant (premise of the statements under `tablesInv`). -/
theorem test_witness_tablesInv : rotState.tablesInv ∧ rotState.cfgValid = true := by
  have hs : ∀ v : Nibble, ∃ x, lookup rotState.sAct x = v ∧ ∀ y, lookup rotState.sAct y = v → y = x := by decide
  have hp : ∀ v : Nibble, ∃ x, lookup rotState.pAct x = v ∧ ∀ y, lookup rotState.pAct y = v → y = x := by decide
  exact ⟨⟨hs, by decide, hp, by decide⟩, rfl⟩

/-- `EveryStepKeepsActiveTablesInverse`: a COMMIT waits at a state with the invariant, and its step answers a next state. -/
theorem test_witness_step_keeps_tables :
    { rotState with pending := [busCommand .commit] }.tablesInv ∧
    (nextOf (step { rotState with pending := [busCommand .commit] })).isSome = true :=
  ⟨test_witness_tablesInv.1, by decide +kernel⟩

/-- `EveryStepKeepsErrorRecordCoherent`, `ClrerrClearsErrorRecord`: an error recorded, and none. -/
theorem test_witness_errorsInv :
    { State.reset with eBlk := true, lasterr := 2, errcmd := 1, pending := [busWrite 0x0C 0x08] }.errorsInv ∧
    rotState.errorsInv ∧ rotState.anyError = false := by
  refine ⟨⟨.invalidBlockSize, rfl, rfl⟩, ⟨rfl, rfl⟩, rfl⟩

theorem test_witness_DecodeOfEncodeIsIdentity : (Instr.wrrk 4).wellFormed = true ∧ (Instr.wrp 15).wellFormed = true := by
  decide
theorem test_witness_EncodeOfDecodeIsIdentity :
    decode 0x00000414 = .ok (.kmix 4) ∧ encode (.kmix 4) = 0x00000414 := by decide
theorem test_witness_DecoderAcceptsExactlyLegalWords : ∀ i, decode 0x00000502 ≠ .ok i := by
  intro i h; cases h
/-- The classes of illegal words at their bounds, and the legal words beside them. -/
theorem test_witness_ReservedWordsRaiseIllegalCommand :
    ([0x00001000, 0x80000020, 0x08, 0x0F, 0x16, 0x1F, 0x22, 0xFF, 0x502, 0xF02, 0x514, 0xF14, 0x100, 0xF21].all
      fun w => !legal w && !(decode w).isOk) = true ∧
    ([0x00, 0x07, 0x10, 0x15, 0x20, 0x21, 0x402, 0x414, 0xF03, 0xF05].all fun w => legal w && (decode w).isOk) = true := by
  decide
theorem test_witness_StepRunsDecodedCommand :
    { rotState with pending := [busWrite 0x0C 0x10] }.pending = .write ⟨0x0C, 4⟩ 0x10 :: [] ∧ decode 0x10 = .ok .sub := by
  decide
theorem test_witness_StepRecordsIllegalWord :
    { rotState with pending := [busWrite 0x0C 0x514] }.pending = .write ⟨0x0C, 4⟩ 0x514 :: [] ∧
    decode 0x514 = .error .keyIndexOutOfRange := by decide
/-- Each offset of the two tables, the last reserved one included, with a read and a write waiting there. -/
theorem test_witness_offsets : ∀ off ∈ [0x00, 0x04, 0x08, 0x0C, 0x10, 0x14, 0x18, 0xFC],
    off % 4 = 0 ∧ off ≤ 0xFC ∧
    { rotState with pending := [busRead off] }.pending = .read ⟨off, 4⟩ :: [] ∧
    { rotState with pending := [busWrite off 0] }.pending = .write ⟨off, 4⟩ 0 :: [] := by decide
/-- `OnlyAlignedWordAccessesHaveAStep`, `UnadmittedAccessStopsByName`: accesses at the bounds. -/
theorem test_witness_accesses :
    (nextOf (step { rotState with pending := [.read ⟨0xFC, 4⟩] })).isSome = true ∧
    nextOf (step { rotState with pending := [.read ⟨0xFD, 4⟩] }) = none ∧
    nextOf (step { rotState with pending := [.write ⟨0xFC, 8⟩ 0] }) = none ∧
    nextOf (step { rotState with pending := [.write ⟨0x100, 4⟩ 0] }) = none := by decide
theorem test_stop_names :
    step { rotState with pending := [.read ⟨0x100, 4⟩] } = .fault .outsideWindow ∧
    step { rotState with pending := [.read ⟨0xFF, 4⟩] } = .refused .busNarrow ∧
    step { rotState with pending := [.straddle 4 8] } = .refused .busNarrow := ⟨rfl, rfl, rfl⟩
theorem test_witness_RegisterWritesIdempotentCommandsNot : State.reset.cfgValid = true ∧ ctrlOffset = 0 ∧ dinOffset = 8 := by
  decide
theorem test_witness_IdleBlockDoesNothing : rotState.pending = [] := by decide
theorem test_witness_ResetDiscardsAllBlockState :
    { rotState with pending := [.reset, busRead 0] }.pending = .reset :: [busRead 0] := by decide
theorem test_witness_ResetDuringCommandAbandonsIt :
    { rotState with pending := [.resetDuring 0x20] }.pending = .resetDuring 0x20 :: [] := by decide
theorem test_witness_NopHasNoEffect : opcOf 0x00001000 = 0 ∧ rsvOf 0x00001000 ≠ 0 ∧ idxOf 0x00000100 ≠ 0 := by decide
/-- The block-size check (LDST, WRRK, KMIXD and R185): masked, fitting in strict mode, and rejected, with the last key. -/
theorem test_witness_block_size :
    (withRegs 0 0xFFFFFFFF).strict = false ∧
    (withRegs 0 0x0000FFFF).din.extractLsb' 16 16 = 0 ∧
    ({ withRegs 0 0x00010000 with strict := true }.strict = true ∧
      { withRegs 0 0x00010000 with strict := true }.din.extractLsb' 16 16 ≠ 0) ∧
    (4 : Nibble).toNat < 5 := by decide
theorem test_witness_R185_issue :
    (withRegs 0 0x00010000).strict = false ∧ (nextOf (issue 0x01 (withRegs 0 0x00010000))).isSome = true := by decide
/-- WRS, WRSI, WRP: the largest entry that fits and the smallest that does not. -/
theorem test_witness_entries :
    (withRegs 0 0xF).din.extractLsb' 4 28 = 0 ∧ (withRegs 0 0x10).din.extractLsb' 4 28 ≠ 0 := by decide
/-- COMMIT: valid and invalid staging tables. -/
theorem test_witness_commit :
    valid rotState.sStg rotState.siStg rotState.pStg = true ∧
    valid badStaging.sStg badStaging.siStg badStaging.pStg = false := by decide +kernel
/-- The statements about configured and unconfigured states. -/
theorem test_witness_configured :
    rotState.cfgValid = true ∧ { rotState with cfgValid := false }.cfgValid = false ∧
    Instr.dec ∈ [Instr.sub, .subi, .perm, .permi, .enc, .dec] := by decide
/-- `NotConfiguredUntilCommitPasses`: a step that clears `CFG_VALID`, and the three that set it. -/
theorem test_witness_cfgValid_changes :
    (nextOf (step { badStaging with pending := [busCommand .commit] })).map (·.cfgValid) = some false ∧
    (nextOf (step { rotState with cfgValid := false, pending := [busCommand .commit] })).map (·.cfgValid) = some true ∧
    (nextOf (step { rotState with cfgValid := false, pending := [.reset] })).map (·.cfgValid) = some true ∧
    (nextOf (step { rotState with cfgValid := false, pending := [.resetDuring 0] })).map (·.cfgValid) = some true := by
  decide +kernel
theorem test_witness_KmixMixesRoundKey : (0 : Nibble).toNat < 5 ∧ (4 : Nibble).toNat < 5 := by decide
theorem test_witness_KeyNumberAboveFourIsIllegal : 5 ≤ (5 : Nibble).toNat ∧ 5 ≤ (15 : Nibble).toNat := by decide
/-- `CommandRaisesOnlyItsOwnError`, clause by clause: no error, CLRERR, and each of the four errors' commands. -/
theorem test_witness_CommandRaisesOnlyItsOwnError :
    (nextOf (issue 0x00 rotState)).map (·.lasterr) = some 0 ∧
    decode 0x07 = .ok .clrerr ∧
    (nextOf (issue 0x15 { withRegs 0 0x00010000 with strict := true })).map (·.lasterr) = some 2 ∧
    (nextOf (issue 0x20 { rotState with cfgValid := false })).map (·.lasterr) = some 4 ∧
    (nextOf (issue 0xF04 (withRegs 0 0x10))).map (·.lasterr) = some 1 ∧
    (nextOf (issue 0x06 badStaging)).map (·.lasterr) = some 1 := by decide +kernel
/-- `ErrorBitsAreSticky`: the events that clear a set bit. -/
theorem test_witness_ErrorBitsAreSticky :
    { State.reset with eCfg := true }.errorBit .notConfigured = true ∧
    (nextOf (step { State.reset with eCfg := true, pending := [busCommand .clrerr] })).map (·.eCfg) = some false ∧
    (nextOf (step { State.reset with eCfg := true, pending := [.reset] })).map (·.eCfg) = some false ∧
    (nextOf (step { State.reset with eCfg := true, pending := [.resetDuring 7] })).map (·.eCfg) = some false := by decide
/-- `ErrIrqFollowsErrorBits`: the first error under `ERRIE`, a CTRL write, CLRERR and reset. -/
theorem test_witness_ErrIrqFollowsErrorBits :
    ({ State.reset with errie := true }.lasterr = 0 ∧
      (nextOf (issue 0x08 { State.reset with errie := true })).map (·.lasterr) = some 3) ∧
    (nextOf (step { State.reset with eCmd := true, pending := [busWrite 0x00 2] })).map (·.errIrq) = some true ∧
    (nextOf (exec .clrerr { State.reset with errie := true, eCmd := true })).map (·.errIrq) = some false ∧
    (nextOf (step { State.reset with errie := true, eCmd := true, pending := [.reset] })).map (·.errIrq) = some false := by
  decide
/-- `PermuteByBijectionKeepsEveryBit`, `DerivedInverseUndoesPermutation`: a bijection that is not its own inverse. -/
theorem test_witness_bijection : (∀ v, ∃! x, lookup rot x = v) ∧ lookup rot (lookup rot 0) ≠ 0 := by
  have h : ∀ v : Nibble, ∃ x, lookup rot x = v ∧ ∀ y, lookup rot y = v → y = x := by decide
  exact ⟨h, by decide⟩
/-- `CipherReadsOnlyStateKeysAndActiveTables`: two states that differ in what the cipher does not read. -/
theorem test_witness_CipherReadsOnly :
    rotState ≠ { rotState with din := 7, strict := true, eMap := true, sStg := rot } ∧
    { rotState with din := 7, strict := true, eMap := true, sStg := rot }.rk = rotState.rk := by decide
theorem test_witness_EachRegisterHasItsWriters : (nextOf (exec .commit rotState)).isSome = true := by decide +kernel
theorem test_witness_StagingTablesInvisibleUntilCommit :
    Instr.enc ≠ .commit ∧ ∀ n, Instr.enc ≠ .wrs n ∧ Instr.enc ≠ .wrsi n ∧ Instr.enc ≠ .wrp n := by decide
theorem test_witness_KeysAndTablesAreNotInTheWindow : ∀ w, busRead 0x10 ≠ busWrite 0x0C w := by
  intro w h; cases h
theorem test_witness_AdmittedTransactionsNeverStop :
    { rotState with pending := [busRead 0xFC, busCommand .dec, .reset] }.portOk := by
  intro e he
  simp only [List.mem_cons, List.not_mem_nil, or_false] at he
  obtain rfl | rfl | rfl := he <;> decide
/-- What an observation holds, where a program's run has one: its values, and what still waits at its end. -/
def seen : Host.Outcome Observation Fault Refusal → Option (List Word × List PortEvent)
  | .next o => some (o.values, o.final.pending)
  | .fault _ => none
  | .refused _ => none

theorem test_witness_TransactionsComposeInProgramOrder :
    (nextOf (runProgram ([busWrite 8 1] ++ [busCommand .ldst]) { rotState with pending := [busRead 0x10] })).map
      (fun t => (t.state, t.pending)) = some (1, []) := by decide
/-- `HostProgramEndsAndObservesItsOwnReads`: another read waits and one has been answered; neither is the program's. -/
theorem test_witness_HostProgramEndsAndObservesItsOwnReads :
    isHostProgram [busWrite 8 7, busRead 8] = true ∧
    { rotState with pending := [busRead 0x10], responses := [.value 5] }.portOk ∧
    seen (observe [busWrite 8 7, busRead 8] { rotState with pending := [busRead 0x10], responses := [.value 5] })
      = some ([7], []) := by
  refine ⟨by decide, ?_, by decide⟩
  intro e he
  obtain rfl : e = busRead 0x10 := by simpa using he
  decide
/-- A reset, an access that is no 32-bit one, and one from below are no transactions of a program (R218). -/
theorem test_program_transactions :
    isHostProgram [.reset] = false ∧ isHostProgram [.read ⟨0, 8⟩] = false ∧ isHostProgram [.straddle 4 8] = false := by
  decide
theorem test_witness_InterleavingsKeepEachMastersOrder :
    interleaves [[busRead 0], [busRead 4]] [busRead 4, busRead 0] = true ∧
    interleaves [[busRead 0], [busRead 0]] [busRead 0, busRead 4] = false := by
  decide
theorem test_witness_KeySlicesAreTheDigits : (0 : Nat) < 5 ∧ (4 : Nat) < 5 := by decide
theorem test_witness_WindowIsTheBytesFromBase :
    windowOffset 0x4000 0x40FF = some 0xFF ∧ windowOffset 0x4000 0x4100 = none ∧ windowOffset 0x4000 0x3FFF = none := by
  decide
/-- `BusAccessTouchingTheWindowIsAdmittedOrStops`, clause by clause at the bounds: just below and just above the window, its
first and last register, and one byte, two bytes and a burst running into it from below. -/
theorem test_witness_bus_accesses :
    rotState.pending = [] ∧
    atBlock 0x4000 [.read 0x3FFC 4] = [] ∧ atBlock 0x4000 [.read 0x4100 4] = [] ∧
    atBlock 0x4000 [.read 0x4000 4] = [busRead 0] ∧ atBlock 0x4000 [.write 0x40FC 4 1] = [busWrite 0xFC 1] ∧
    atBlock 0x4000 [.read 0x3FFD 4] = [.straddle 3 4] ∧ atBlock 0x4000 [.read 0x3FFE 4] = [.straddle 2 4] ∧
    atBlock 0x4000 [.write 0x3FFC 8 1] = [.straddle 4 8] ∧
    nextOf (runProgram (atBlock 0x4000 [.write 0x3FFC 8 1]) rotState) = none := by decide
/-- `DisjointBlocksShareNoAdmittedEvent`: two windows that touch, an access to the lower one's last register and a reset. -/
theorem test_witness_DisjointBlocksShareNoAdmittedEvent :
    atBlock 0x4000 [.read 0x40FC 4] = [busRead 0xFC] ∧ (busRead 0xFC).admitted = true ∧
    atBlock 0x4100 [.read 0x40FC 4] = [] ∧ atBlock 0x4000 [.reset 0x4000] = [.reset] ∧
    atBlock 0x4100 [.reset 0x4000] = [] := by decide

end Sys2Proof.Tests
end

section
/-! PROOF. The state's family (10_state.md): the reset values (R36), and the active tables as mutually inverse bijections
(R31). The first three parts say once what validation, inversion, a command and a step can do; later families use them. -/

namespace Sys2Proof.Machine

/-! ### Validation and inversion of tables -/

theorem nibbles_countP_eq_one_iff (p : Nibble → Bool) : nibbles.countP p = 1 ↔ ∃! x, p x = true := by
  have hset : (nibbles.filter p).toFinset = Finset.univ.filter fun x => p x = true := by
    ext x; simp [mem_nibbles]
  rw [Fintype.existsUnique_iff_card_one, ← hset, List.toFinset_card_of_nodup (nibbles_nodup.filter p),
    List.countP_eq_length_filter]

/-- The block's check of a table accepts exactly the bijections (R105). -/
theorem bij_iff (t : Table) : bij t = true ↔ ∀ v, ∃! x, lookup t x = v := by
  simp only [bij, nibbles_all_iff, beq_iff_eq, nibbles_countP_eq_one_iff]

theorem valid_iff (s si p : Table) :
    valid s si p = true ↔
      (∀ v, ∃! x, lookup s x = v) ∧ (∀ v, ∃! i, lookup p i = v) ∧ ∀ x, lookup si (lookup s x) = x := by
  simp only [valid, Bool.and_eq_true, bij_iff, nibbles_all_iff, beq_iff_eq, and_assoc]

theorem lookup_injective {t : Table} (h : ∀ v, ∃! x, lookup t x = v) : Function.Injective (lookup t) :=
  fun _ j hij => (h (lookup t j)).unique hij rfl

/-- After any part of the loop of `inverse`, an entry the loop has visited is inverted, and any other is as it was. -/
theorem lookup_foldl_update {p : Table} (hp : Function.Injective (lookup p)) (l : List Nibble) (q : Table) (i : Nibble) :
    lookup (l.foldl (fun q j => update q (lookup p j) j) q) (lookup p i) = if i ∈ l then i else lookup q (lookup p i) := by
  induction l generalizing q with
  | nil => simp
  | cons j l ih =>
    rw [List.foldl_cons, ih]
    by_cases hij : i = j
    · subst hij; simp
    · simp [hij, lookup_update_of_ne q j (hp.ne hij)]

/-- The derived table inverts a bijection from the left (R108). -/
theorem lookup_inverse_lookup {p : Table} (h : ∀ v, ∃! x, lookup p x = v) (i : Nibble) :
    lookup (inverse p) (lookup p i) = i := by
  rw [inverse, lookup_foldl_update (lookup_injective h), if_pos (mem_nibbles i)]

/-! ### What a command and a step can do -/

/-- A command that checks its operand and then makes one change ends with that change, or with the error of the check. -/
theorem endCommand_map_eq_next {α : Type} {w : Word} {s t : State} {c : Except ErrorKind α} {f : α → State}
    (h : endCommand w s (c.map f) = .next t) : (∃ a, c = .ok a ∧ t = f a) ∨ ∃ e, c = .error e ∧ t = s.raiseError e w := by
  cases c with
  | ok a => exact .inl ⟨a, rfl, by simpa [Except.map] using h.symm⟩
  | error e => exact .inr ⟨e, rfl, by simpa [Except.map] using h.symm⟩

/-- All that COMMIT can do: activate tables that are valid, or withdraw the configuration and record the error (R106, R107). -/
theorem exec_commit_eq_next {s t : State} (h : exec .commit s = .next t) :
    (valid s.sStg s.siStg s.pStg = true ∧ t = s.activate) ∨
    (valid s.sStg s.siStg s.pStg = false ∧ t = s.invalidate.raiseError .invalidMapping (encode .commit)) := by
  rw [exec_commit] at h
  split at h
  · rename_i hv
    exact .inl ⟨hv, by simpa using h.symm⟩
  · rename_i hv
    exact .inr ⟨by simpa using hv, by simpa using h.symm⟩

/-- All that a command other than COMMIT can do: record an error, change nothing, clear the error record, or write one of
`STATE`, a round key and an entry of a staging table. -/
theorem exec_eq_next_of_ne_commit {i : Instr} {s t : State} (hi : i ≠ .commit) (h : exec i s = .next t) :
    (∃ e, t = s.raiseError e (encode i)) ∨
    (i = .nop ∧ t = s) ∨
    (i = .clrerr ∧ t = s.clearErrors) ∨
    (∃ v, t = s.setState v) ∨
    (∃ n k v, i = .wrrk n ∧ t = s.setRk k v) ∨
    (∃ n v, i = .wrs n ∧ t = s.setSStg n v) ∨
    (∃ n v, i = .wrsi n ∧ t = s.setSiStg n v) ∨
    (∃ n v, i = .wrp n ∧ t = s.setPStg n v) := by
  cases i
  case commit => exact absurd rfl hi
  case nop => exact .inr (.inl ⟨rfl, by simpa [exec_nop] using h.symm⟩)
  case clrerr => exact .inr (.inr (.inl ⟨rfl, by simpa [exec_clrerr] using h.symm⟩))
  case ldst | sub | subi | perm | permi | kmix | kmixd | enc | dec =>
    obtain ⟨_, -, rfl⟩ | ⟨e, -, rfl⟩ := endCommand_map_eq_next h
    · exact .inr (.inr (.inr (.inl ⟨_, rfl⟩)))
    · exact .inl ⟨e, rfl⟩
  case wrrk n =>
    rw [exec_wrrk] at h
    cases hk : keyIndex n with
    | error e => exact .inl ⟨e, by simpa [hk, Except.bind] using h.symm⟩
    | ok k =>
      rw [hk] at h
      obtain ⟨v, -, rfl⟩ | ⟨e, -, rfl⟩ := endCommand_map_eq_next h
      · exact .inr (.inr (.inr (.inr (.inl ⟨n, k, v, rfl, rfl⟩))))
      · exact .inl ⟨e, rfl⟩
  case wrs n =>
    obtain ⟨v, -, rfl⟩ | ⟨e, -, rfl⟩ := endCommand_map_eq_next h
    · exact .inr (.inr (.inr (.inr (.inr (.inl ⟨n, v, rfl, rfl⟩)))))
    · exact .inl ⟨e, rfl⟩
  case wrsi n =>
    obtain ⟨v, -, rfl⟩ | ⟨e, -, rfl⟩ := endCommand_map_eq_next h
    · exact .inr (.inr (.inr (.inr (.inr (.inr (.inl ⟨n, v, rfl, rfl⟩))))))
    · exact .inl ⟨e, rfl⟩
  case wrp n =>
    obtain ⟨v, -, rfl⟩ | ⟨e, -, rfl⟩ := endCommand_map_eq_next h
    · exact .inr (.inr (.inr (.inr (.inr (.inr (.inr ⟨n, v, rfl, rfl⟩))))))
    · exact .inl ⟨e, rfl⟩

theorem step_eq_next {s t : State} (h : step s = .next t) :
    (s.pending = [] ∧ t = s) ∨ ∃ e rest, s.pending = e :: rest ∧ serve e (s.accept rest) = .next t := by
  cases hp : s.pending with
  | nil => exact .inl ⟨rfl, by simpa [step, hp] using h.symm⟩
  | cons e rest => exact .inr ⟨e, rest, rfl, step_cons hp ▸ h⟩

/-! ### The active tables under each update of the state -/

section
variable (s : State)

@[simp] theorem tablesInv_setState (v : Block) : (s.setState v).tablesInv ↔ s.tablesInv := Iff.rfl
@[simp] theorem tablesInv_setRk (i : Fin 5) (v : Block) : (s.setRk i v).tablesInv ↔ s.tablesInv := Iff.rfl
@[simp] theorem tablesInv_setSStg (n v : Nibble) : (s.setSStg n v).tablesInv ↔ s.tablesInv := Iff.rfl
@[simp] theorem tablesInv_setSiStg (n v : Nibble) : (s.setSiStg n v).tablesInv ↔ s.tablesInv := Iff.rfl
@[simp] theorem tablesInv_setPStg (n v : Nibble) : (s.setPStg n v).tablesInv ↔ s.tablesInv := Iff.rfl
@[simp] theorem tablesInv_invalidate : s.invalidate.tablesInv ↔ s.tablesInv := Iff.rfl
@[simp] theorem tablesInv_raiseError (e : ErrorKind) (w : Word) : (s.raiseError e w).tablesInv ↔ s.tablesInv := Iff.rfl
@[simp] theorem tablesInv_clearErrors : s.clearErrors.tablesInv ↔ s.tablesInv := Iff.rfl
@[simp] theorem tablesInv_writeCtrl (v : Word) : (s.writeCtrl v).tablesInv ↔ s.tablesInv := Iff.rfl
@[simp] theorem tablesInv_writeDin (v : Word) : (s.writeDin v).tablesInv ↔ s.tablesInv := Iff.rfl
@[simp] theorem tablesInv_accept (rest : List PortEvent) : (s.accept rest).tablesInv ↔ s.tablesInv := Iff.rfl
@[simp] theorem tablesInv_respond (r : Response) : (s.respond r).tablesInv ↔ s.tablesInv := Iff.rfl
@[simp] theorem tablesInv_respondCutShort : s.respondCutShort.tablesInv ↔ s.tablesInv := Iff.rfl
@[simp] theorem tablesInv_resetBlock : s.resetBlock.tablesInv ↔ State.reset.tablesInv := Iff.rfl

@[simp] theorem tablesInv_writeReg (off : Nat) (v : Word) : (writeReg s off v).tablesInv ↔ s.tablesInv := by
  unfold writeReg
  split_ifs <;> simp

end

/-- The tables that COMMIT activates are mutually inverse bijections: two clauses are what it checked, the P-box's inverse is
derived. -/
theorem tablesInv_activate {s : State} (h : valid s.sStg s.siStg s.pStg = true) : s.activate.tablesInv := by
  obtain ⟨hs, hp, hsi⟩ := (valid_iff _ _ _).1 h
  exact ⟨hs, hsi, hp, lookup_inverse_lookup hp⟩

/-- The reset state is what a COMMIT of the reference tables leaves (R33). -/
theorem activate_reset : State.reset.activate = State.reset := by decide

theorem tablesInv_reset : State.reset.tablesInv := by
  have hvalid : valid State.reset.sStg State.reset.siStg State.reset.pStg = true := by decide
  simpa only [activate_reset] using tablesInv_activate hvalid

/-! ### Every step keeps the active tables mutually inverse -/

theorem exec_keeps_tablesInv {i : Instr} {s t : State} (hs : s.tablesInv) (h : exec i s = .next t) : t.tablesInv := by
  by_cases hi : i = .commit
  · subst hi
    obtain ⟨hv, rfl⟩ | ⟨-, rfl⟩ := exec_commit_eq_next h
    · exact tablesInv_activate hv
    · simpa using hs
  · obtain ⟨e, rfl⟩ | ⟨-, rfl⟩ | ⟨-, rfl⟩ | ⟨v, rfl⟩ | ⟨n, k, v, -, rfl⟩ | ⟨n, v, -, rfl⟩ | ⟨n, v, -, rfl⟩ |
      ⟨n, v, -, rfl⟩ := exec_eq_next_of_ne_commit hi h <;> simpa using hs

theorem issue_keeps_tablesInv {w : Word} {s t : State} (hs : s.tablesInv) (h : issue w s = .next t) : t.tablesInv := by
  cases hd : decode w with
  | ok i => exact exec_keeps_tablesInv hs (issue_of_decode_ok hd s ▸ h)
  | error e =>
    rw [issue_of_decode_error hd] at h
    cases h
    simpa using hs

theorem serve_keeps_tablesInv {e : PortEvent} {s t : State} (hs : s.tablesInv) (h : serve e s = .next t) :
    t.tablesInv := by
  obtain ⟨a, -, -, rfl⟩ | ⟨a, v, -, -, -, rfl⟩ | ⟨w, u, -, hu, rfl⟩ | ⟨-, rfl⟩ | ⟨w, -, rfl⟩ := serve_eq_next h
  · simpa using hs
  · simpa using hs
  · simpa using issue_keeps_tablesInv hs hu
  · simpa using tablesInv_reset
  · simpa using tablesInv_reset

theorem step_keeps_tablesInv {s t : State} (hs : s.tablesInv) (h : step s = .next t) : t.tablesInv := by
  obtain ⟨-, rfl⟩ | ⟨e, rest, -, he⟩ := step_eq_next h
  · exact hs
  · exact serve_keeps_tablesInv ((tablesInv_accept s rest).2 hs) he

/-- Settles O18: the reference tables have the invariant, and of all a step can do only COMMIT and reset write the active
tables. -/
theorem everyStepKeepsActiveTablesInverse : Obligations.EveryStepKeepsActiveTablesInverse :=
  ⟨tablesInv_reset, fun _ _ => step_keeps_tablesInv⟩

/-! ### Reset values -/

theorem reset_rk (i : Nat) (h : i < 5) : State.reset.rk[i] = 0x0000 := by
  revert i; decide

/-- Settles O16: each entry of R36's table is the field of `State.reset`; the round keys by their numbers. -/
theorem resetValuesAreTheTables : Obligations.ResetValuesAreTheTables :=
  ⟨rfl, rfl, reset_rk, rfl, rfl, rfl, rfl, rfl, rfl, rfl, rfl, rfl,
    ⟨rfl, rfl⟩, ⟨rfl, rfl⟩, ⟨rfl, rfl, rfl⟩, rfl⟩

end Sys2Proof.Machine
end

section
/-! PROOF. The memory family (20_memory.md): which accesses the window admits (R51), what a read returns (R53), what a write
does (R54), and which writes are idempotent (R55). -/

namespace Sys2Proof.Machine

/-! ### What completes -/

/-- No command stops the block (R180): its one error, where it has one, is recorded. -/
theorem exec_completes (i : Instr) (s : State) : ∃ t, exec i s = .next t := by
  cases i
  case nop => exact ⟨s, rfl⟩
  case clrerr => exact ⟨s.clearErrors, rfl⟩
  case commit =>
    rw [exec_commit]
    split <;> exact endCommand_completes _ _ _
  case ldst | wrrk | wrs | wrsi | wrp | sub | subi | perm | permi | kmix | kmixd | enc | dec =>
    exact endCommand_completes _ _ _

theorem issue_completes (w : Word) (s : State) : ∃ t, issue w s = .next t := by
  cases hd : decode w with
  | ok i => exact issue_of_decode_ok hd s ▸ exec_completes i s
  | error e => exact ⟨_, issue_of_decode_error hd s⟩

theorem serveWrite_of_ne_cmd {off : Nat} (h : off ≠ cmdOffset) (v : Word) (s : State) :
    serveWrite off v s = .next ((writeReg s off v).respond .completion) := if_neg h

theorem serveWrite_cmd (v : Word) (s : State) : serveWrite cmdOffset v s = completeWrite (issue v s) := if_pos rfl

theorem serveWrite_completes (off : Nat) (v : Word) (s : State) : ∃ t, serveWrite off v s = .next t := by
  by_cases h : off = cmdOffset
  · obtain ⟨u, hu⟩ := issue_completes v s
    exact ⟨u.respond .completion, by rw [h, serveWrite_cmd, hu, completeWrite_next]⟩
  · exact ⟨_, serveWrite_of_ne_cmd h v s⟩

/-! ### Which accesses are admitted (R51) -/

/-- The last aligned word of the window is the one at 0xFC. -/
theorem admittedAccess_iff (a : Access) :
    (a.offset < Config.windowSize ∧ a.bytes = 4 ∧ a.offset % 4 = 0) ↔
      (a.bytes = 4 ∧ a.offset % 4 = 0 ∧ a.offset ≤ 0xFC) := by
  have hsize : Config.windowSize = 0x100 := rfl
  omega

theorem guardAccess_word {off : Nat} (h4 : off % 4 = 0) (hoff : off ≤ 0xFC) (o : Host.Outcome State Fault Refusal) :
    guardAccess ⟨off, 4⟩ o = o :=
  guardAccess_of_admitted ((admittedAccess_iff ⟨off, 4⟩).2 ⟨rfl, h4, hoff⟩) o

/-- An access whose effect would complete has a next state exactly when the window admits it. -/
theorem guardAccess_completes_iff (a : Access) {o : Host.Outcome State Fault Refusal} (ho : ∃ t, o = .next t) :
    (∃ t, guardAccess a o = .next t) ↔ (a.bytes = 4 ∧ a.offset % 4 = 0 ∧ a.offset ≤ 0xFC) := by
  rw [← admittedAccess_iff]
  constructor
  · rintro ⟨t, h⟩
    exact (guardAccess_eq_next h).1
  · intro ha
    rwa [guardAccess_of_admitted ha]

/-- Settles O10: a read always completes, and so does a write with the command it may issue, so only the guard decides. -/
theorem onlyAlignedWordAccessesHaveAStep : Obligations.OnlyAlignedWordAccessesHaveAStep := by
  intro s a v rest h
  obtain h | h := h <;> rw [step_cons h]
  · exact guardAccess_completes_iff a ⟨_, rfl⟩
  · exact guardAccess_completes_iff a (serveWrite_completes a.offset v _)

/-! ### What an admitted access does (R53, R54) -/

section
variable {s : State} {off : Nat} {v : Word} {rest : List PortEvent}

theorem step_read_word (hp : s.pending = .read ⟨off, 4⟩ :: rest) (h4 : off % 4 = 0) (hoff : off ≤ 0xFC) :
    step s = .next ((s.accept rest).respond (.value (readReg s off))) := by
  rw [step_cons hp]
  exact guardAccess_word h4 hoff _

theorem step_write_word (hp : s.pending = .write ⟨off, 4⟩ v :: rest) (h4 : off % 4 = 0) (hoff : off ≤ 0xFC) :
    step s = serveWrite off v (s.accept rest) := by
  rw [step_cons hp]
  exact guardAccess_word h4 hoff _

theorem step_write_register (hp : s.pending = .write ⟨off, 4⟩ v :: rest) (h4 : off % 4 = 0) (hoff : off ≤ 0xFC)
    (hc : off ≠ cmdOffset) : step s = .next ((writeReg (s.accept rest) off v).respond .completion) := by
  rw [step_write_word hp h4 hoff, serveWrite_of_ne_cmd hc]

theorem step_write_cmd (hp : s.pending = .write ⟨cmdOffset, 4⟩ v :: rest) :
    step s = completeWrite (issue v (s.accept rest)) := by
  rw [step_cons hp]
  exact serve_write_cmd v _

end

@[simp] theorem writeReg_ctrl (s : State) (v : Word) : writeReg s ctrlOffset v = s.writeCtrl v := rfl

@[simp] theorem writeReg_din (s : State) (v : Word) : writeReg s dinOffset v = s.writeDin v := rfl

/-- Every other offset is read-only or reserved, but for CMD, which no register write serves. -/
theorem writeReg_of_ne {off : Nat} (hctrl : off ≠ ctrlOffset) (hdin : off ≠ dinOffset) (s : State) (v : Word) :
    writeReg s off v = s := by
  rw [writeReg, if_neg hctrl, if_neg hdin]

/-- Settles O8: the model's read function has no row of its own for CMD, which reads as 0 like the reserved offsets. -/
theorem readReturnsValueAndChangesNothing : Obligations.ReadReturnsValueAndChangesNothing := by
  intro s off rest hp h4 hoff
  rw [step_read_word hp h4 hoff]
  by_cases hcmd : off = 0x0C
  · subst hcmd
    rfl
  · simp only [if_neg hcmd]
    rfl

/-- Settles O9, row by row of R54's table. -/
theorem writeHasItsTableEffect : Obligations.WriteHasItsTableEffect := by
  intro s off v rest hp h4 hoff
  split_ifs with hctrl hdin hcmd
  · subst hctrl
    rw [step_write_register (off := ctrlOffset) hp h4 hoff (by decide), writeReg_ctrl]
    rfl
  · subst hdin
    rw [step_write_register (off := dinOffset) hp h4 hoff (by decide), writeReg_din]
    rfl
  · subst hcmd
    obtain ⟨t, ht⟩ := issue_completes v (s.accept rest)
    exact ⟨t, ht, by rw [step_write_cmd hp, ht]; rfl⟩
  · rw [step_write_register hp h4 hoff hcmd, writeReg_of_ne hctrl hdin]
    rfl

/-! ### Which writes are idempotent (R55) -/

theorem writeReg_accept (s : State) (rest : List PortEvent) (off : Nat) (v : Word) :
    writeReg (s.accept rest) off v = (writeReg s off v).accept rest := by
  unfold writeReg
  split_ifs <;> rfl

theorem writeReg_respond (s : State) (r : Response) (off : Nat) (v : Word) :
    writeReg (s.respond r) off v = (writeReg s off v).respond r := by
  unfold writeReg
  split_ifs <;> rfl

/-- A register write is idempotent, whatever the offset. -/
theorem writeReg_writeReg (s : State) (off : Nat) (v : Word) :
    writeReg (writeReg s off v) off v = writeReg s off v := by
  unfold writeReg
  split_ifs <;> rfl

theorem runSteps_two {s t u : State} (hst : step s = .next t) (htu : step t = .next u) : runSteps 2 s = .next u := by
  rw [runSteps_succ_of_next hst, runSteps_succ_of_next htu, runSteps_zero]

section
variable (s : State) (rest : List PortEvent)

theorem step_accept_busWrite {off : Nat} (v : Word) (h4 : off % 4 = 0) (hoff : off ≤ 0xFC) (hc : off ≠ cmdOffset) :
    step (s.accept (busWrite off v :: rest)) = .next (((writeReg s off v).respond .completion).accept rest) := by
  rw [step_write_register rfl h4 hoff hc, writeReg_accept, writeReg_accept]
  rfl

/-- Two register writes of the same value differ from one in the completions alone. -/
theorem runSteps_two_busWrite {off : Nat} (v : Word) (h4 : off % 4 = 0) (hoff : off ≤ 0xFC) (hc : off ≠ cmdOffset) :
    runSteps 2 (s.accept (busWrite off v :: busWrite off v :: rest)) =
      .next ((((writeReg s off v).respond .completion).respond .completion).accept rest) := by
  have hsecond := step_accept_busWrite ((writeReg s off v).respond .completion) rest v h4 hoff hc
  rw [writeReg_respond, writeReg_writeReg] at hsecond
  exact runSteps_two (step_accept_busWrite s _ v h4 hoff hc) hsecond

theorem exec_enc_of_configured (hv : s.cfgValid = true) :
    exec .enc s = .next (s.setState (encrypt s.rk s.sAct s.pAct s.state)) := by
  rw [exec_enc, configured_of_valid hv]
  rfl

/-- A CMD write of the ENC word encrypts `STATE` in a configured block (R54, R141). -/
theorem step_accept_encWord (hv : s.cfgValid = true) :
    step (s.accept (busWrite 0x0C 0x20 :: rest)) =
      .next (((s.setState (encrypt s.rk s.sAct s.pAct s.state)).respond .completion).accept rest) := by
  have hdecode : decode 0x20 = .ok .enc := by decide
  have hserved : ((s.accept (busWrite 0x0C 0x20 :: rest)).accept rest).cfgValid = true := hv
  rw [step_write_cmd rfl, issue_of_decode_ok hdecode, exec_enc_of_configured _ hserved, completeWrite_next]
  rfl

end

theorem runSteps_two_encWord {s : State} (hv : s.cfgValid = true) :
    runSteps 2 { s with pending := [busWrite 0x0C 0x20, busWrite 0x0C 0x20] } = .next { s with
      pending := [], responses := s.responses ++ [.completion, .completion]
      state := encrypt s.rk s.sAct s.pAct (encrypt s.rk s.sAct s.pAct s.state) } := by
  rw [List.append_cons]
  exact runSteps_two (step_accept_encWord s _ hv) (step_accept_encWord _ [] hv)

/-- With the reset keys and tables, a second ENC of the reset block changes `STATE` once more. -/
theorem encrypt_encrypt_reset_ne :
    encrypt State.reset.rk State.reset.sAct State.reset.pAct
        (encrypt State.reset.rk State.reset.sAct State.reset.pAct State.reset.state) ≠
      encrypt State.reset.rk State.reset.sAct State.reset.pAct State.reset.state := by
  decide +kernel

/-- Settles O12: a register write repeated finds the value it wrote, while a CMD write runs its command again. -/
theorem registerWritesIdempotentCommandsNot : Obligations.RegisterWritesIdempotentCommandsNot := by
  refine ⟨fun s off v hoff => ?_, fun s => runSteps_two_encWord, State.reset, rfl, encrypt_encrypt_reset_ne⟩
  have hword : off % 4 = 0 ∧ off ≤ 0xFC ∧ off ≠ cmdOffset := by
    obtain rfl | rfl := hoff <;> decide
  obtain ⟨h4, hle, hc⟩ := hword
  exact ⟨_, step_accept_busWrite s [] v h4 hle hc, runSteps_two_busWrite s [] v h4 hle hc⟩

end Sys2Proof.Machine
end

section
/-! PROOF. The encoding's family (30_encoding.md): which words the decoder accepts (R74), and what the others do and do not do
(R75, R184). The first part says once what the decoder's answer tells of a word's fields, the third what a legal command
does to the error record; later families use them. -/

namespace Sys2Proof

/-! ### What the decoder's answer says about the word (R73, R74, R75) -/

/-- The class of illegal words that a decode error names (R75), as a predicate on the word's fields. -/
def DecodeError.describes : DecodeError → Word → Prop
  | .reservedBits, w => rsvOf w ≠ 0
  | .reservedOpcode, w =>
    (0x08 ≤ (opcOf w).toNat ∧ (opcOf w).toNat ≤ 0x0F) ∨
    (0x16 ≤ (opcOf w).toNat ∧ (opcOf w).toNat ≤ 0x1F) ∨ 0x22 ≤ (opcOf w).toNat
  | .keyIndexOutOfRange, w => (opcOf w = 0x02 ∨ opcOf w = 0x14) ∧ 5 ≤ (idxOf w).toNat
  | .indexNotZero, w =>
    (opcOf w ≠ 0x02 ∧ opcOf w ≠ 0x03 ∧ opcOf w ≠ 0x04 ∧ opcOf w ≠ 0x05 ∧ opcOf w ≠ 0x14) ∧ idxOf w ≠ 0

/-- The word's fields are those of a well-formed command (R71, R72). -/
structure Instr.HasFields (i : Instr) (w : Word) : Prop where
  rsv : rsvOf w = 0
  opc : opcOf w = i.opcode
  idx : idxOf w = i.index
  wellFormed : i.wellFormed = true

/-- What an answer of the decoder tells of the word. -/
def Explains (w : Word) : Except DecodeError Instr → Prop
  | .ok i => i.HasFields w
  | .error e => e.describes w

section
variable {w : Word}

/-- The answer of a row without index: the row's command where `IDX` is 0, else the error. -/
theorem explains_withoutIndex {i : Instr} (hrsv : rsvOf w = 0) (hopc : opcOf w = i.opcode) (hidx : i.index = 0)
    (hwf : i.wellFormed = true)
    (hno : i.opcode ≠ 0x02 ∧ i.opcode ≠ 0x03 ∧ i.opcode ≠ 0x04 ∧ i.opcode ≠ 0x05 ∧ i.opcode ≠ 0x14) :
    Explains w (withoutIndex (idxOf w) i) := by
  unfold withoutIndex
  split_ifs with h
  · exact ⟨hrsv, hopc, h.trans hidx.symm, hwf⟩
  · exact ⟨hopc ▸ hno, h⟩

/-- The answer of a row with a round-key number: the row's command where `IDX` is 0..4, else the error. -/
theorem explains_withKeyIndex {f : Nibble → Instr} (hrsv : rsvOf w = 0) (hopc : opcOf w = 0x02 ∨ opcOf w = 0x14)
    (hf : opcOf w = (f (idxOf w)).opcode) (hidx : (f (idxOf w)).index = idxOf w)
    (hwf : (f (idxOf w)).wellFormed = decide ((idxOf w).toNat ≤ 4)) :
    Explains w (withKeyIndex (idxOf w) f) := by
  unfold withKeyIndex
  split_ifs with h
  · exact ⟨hrsv, hf, hidx.symm, hwf.trans (decide_eq_true h)⟩
  · exact ⟨hopc, Nat.not_le.1 h⟩

end

/-- The one walk through the decoder: the opcode map of R73, row by row. -/
theorem explains_decode (w : Word) : Explains w (decode w) := by
  have opc_eq {c : BitVec 8} (h : (opcOf w).toNat = c.toNat) : opcOf w = c := BitVec.eq_of_toNat_eq h
  unfold decode
  split_ifs with hrsv
  · split
    case h_3 h => exact explains_withKeyIndex hrsv (.inl (opc_eq h)) (opc_eq h) rfl rfl
    case h_13 h => exact explains_withKeyIndex hrsv (.inr (opc_eq h)) (opc_eq h) rfl rfl
    case h_4 h | h_5 h | h_6 h => exact ⟨hrsv, opc_eq h, rfl, rfl⟩
    case h_17 =>
      simp only [imp_false] at *
      simp only [Explains, DecodeError.describes]
      omega
    all_goals
      rename_i h
      exact explains_withoutIndex hrsv (opc_eq h) rfl rfl (by decide)
  · exact hrsv

theorem hasFields_of_decode_ok {w : Word} {i : Instr} (h : decode w = .ok i) : i.HasFields w := by
  have hw := explains_decode w
  rwa [h] at hw

theorem describes_of_decode_error {w : Word} {e : DecodeError} (h : decode w = .error e) : e.describes w := by
  have hw := explains_decode w
  rwa [h] at hw

/-! ### The words of no illegal class are the legal ones (R74) -/

/-- `OPC` is one of the sixteen of R73. -/
def LegalOpcode (opc : BitVec 8) : Prop :=
  opc.toNat ≤ 0x07 ∨ (0x10 ≤ opc.toNat ∧ opc.toNat ≤ 0x15) ∨ opc = 0x20 ∨ opc = 0x21

/-- `IDX` is in the range that R72 gives the command of this opcode. -/
def LegalIndex (opc : BitVec 8) (idx : Nibble) : Prop :=
  if opc = 0x02 ∨ opc = 0x14 then idx.toNat ≤ 4
  else if opc = 0x03 ∨ opc = 0x04 ∨ opc = 0x05 then True
  else idx = 0

theorem legalOpcode_opcode (i : Instr) : LegalOpcode i.opcode := by
  cases i <;> simp [LegalOpcode, Instr.opcode]

theorem legalIndex_of_wellFormed {i : Instr} (h : i.wellFormed = true) : LegalIndex i.opcode i.index := by
  cases i
  case wrrk | kmix => simpa [LegalIndex, Instr.opcode, Instr.index, Instr.wellFormed] using h
  all_goals simp [LegalIndex, Instr.opcode, Instr.index]

/-- The opcodes of R75's gaps are those outside R73's map. -/
theorem not_reservedOpcode_iff (w : Word) : ¬ DecodeError.reservedOpcode.describes w ↔ LegalOpcode (opcOf w) := by
  simp only [DecodeError.describes, LegalOpcode]
  bv_omega

theorem not_badIndex_iff (w : Word) :
    (¬ DecodeError.keyIndexOutOfRange.describes w ∧ ¬ DecodeError.indexNotZero.describes w) ↔
      LegalIndex (opcOf w) (idxOf w) := by
  simp only [DecodeError.describes, LegalIndex]
  split_ifs with hkey hentry
  · bv_omega
  · tauto
  · tauto

/-- R74's predicate says that a word is in none of R75's classes. -/
theorem no_describes_iff (w : Word) :
    (∀ e : DecodeError, ¬ e.describes w) ↔ rsvOf w = 0 ∧ LegalOpcode (opcOf w) ∧ LegalIndex (opcOf w) (idxOf w) := by
  rw [← not_reservedOpcode_iff, ← not_badIndex_iff]
  constructor
  · intro h
    exact ⟨not_not.1 (h .reservedBits), h .reservedOpcode, h .keyIndexOutOfRange, h .indexNotZero⟩
  · rintro ⟨hrsv, hopc, hkey, hidx⟩ e
    cases e
    case reservedBits => exact not_not_intro hrsv
    case reservedOpcode => exact hopc
    case keyIndexOutOfRange => exact hkey
    case indexNotZero => exact hidx

/-- R75's list of the illegal words, class by class: each class is what one decode error describes. -/
theorem exists_describes_iff (w : Word) :
    (∃ e : DecodeError, e.describes w) ↔
      (rsvOf w ≠ 0 ∨
        (0x08 ≤ (opcOf w).toNat ∧ (opcOf w).toNat ≤ 0x0F) ∨
        (0x16 ≤ (opcOf w).toNat ∧ (opcOf w).toNat ≤ 0x1F) ∨ 0x22 ≤ (opcOf w).toNat ∨
        ((opcOf w = 0x02 ∨ opcOf w = 0x14) ∧ 5 ≤ (idxOf w).toNat) ∨
        ((opcOf w ≠ 0x02 ∧ opcOf w ≠ 0x03 ∧ opcOf w ≠ 0x04 ∧ opcOf w ≠ 0x05 ∧ opcOf w ≠ 0x14) ∧ idxOf w ≠ 0)) := by
  constructor
  · rintro ⟨e, he⟩
    cases e
    case reservedBits => exact .inl he
    case reservedOpcode =>
      obtain h | h | h := he
      exacts [.inr (.inl h), .inr (.inr (.inl h)), .inr (.inr (.inr (.inl h)))]
    case keyIndexOutOfRange => exact .inr (.inr (.inr (.inr (.inl he))))
    case indexNotZero => exact .inr (.inr (.inr (.inr (.inr he))))
  · rintro (h | h | h | h | h | h)
    · exact ⟨.reservedBits, h⟩
    · exact ⟨.reservedOpcode, .inl h⟩
    · exact ⟨.reservedOpcode, .inr (.inl h)⟩
    · exact ⟨.reservedOpcode, .inr (.inr h)⟩
    · exact ⟨.keyIndexOutOfRange, h⟩
    · exact ⟨.indexNotZero, h⟩

/-- No word is both a command's and in an illegal class. -/
theorem Instr.HasFields.not_describes {w : Word} {i : Instr} (h : i.HasFields w) (e : DecodeError) : ¬ e.describes w := by
  refine (no_describes_iff w).2 ⟨h.rsv, ?_, ?_⟩ e
  · rw [h.opc]
    exact legalOpcode_opcode i
  · rw [h.opc, h.idx]
    exact legalIndex_of_wellFormed h.wellFormed

/-- A word decodes exactly where no decode error describes it. -/
theorem decode_ok_iff (w : Word) : (∃ i, decode w = .ok i) ↔ ∀ e : DecodeError, ¬ e.describes w := by
  constructor
  · rintro ⟨i, hi⟩
    exact (hasFields_of_decode_ok hi).not_describes
  · intro h
    cases hd : decode w with
    | ok i => exact ⟨i, rfl⟩
    | error e => exact absurd (describes_of_decode_error hd) (h e)

end Sys2Proof

namespace Sys2Proof.Machine

/-- A word that is no command records `IllegalCommand` and does nothing else (R184). -/
theorem issue_of_not_decode_ok {w : Word} (h : ∀ i, decode w ≠ .ok i) (s : State) :
    issue w s = .next { s with eCmd := true, lasterr := 3, errcmd := w } := by
  cases hd : decode w with
  | ok i => exact absurd hd (h i)
  | error e => rw [issue_of_decode_error hd, raiseError_illegalCommand]

/-- Settles O3: the decoder accepts the words that no decode error describes, and those are the words with legal fields. -/
theorem decoderAcceptsExactlyLegalWords : Obligations.DecoderAcceptsExactlyLegalWords :=
  ⟨fun w => (decode_ok_iff w).trans (no_describes_iff w), fun _ s h => issue_of_not_decode_ok h s⟩

/-! ### What a legal command does to the error record (R182, R183) -/

/-- Two states with the same error bits, `LASTERR` and `ERRCMD`. -/
def State.sameErrorRecord (t s : State) : Prop :=
  (∀ e, t.errorBit e = s.errorBit e) ∧ t.lasterr = s.lasterr ∧ t.errcmd = s.errcmd

section
variable (s : State)

theorem sameErrorRecord_refl : s.sameErrorRecord s := ⟨fun _ => rfl, rfl, rfl⟩
theorem sameErrorRecord_setState (v : Block) : (s.setState v).sameErrorRecord s := sameErrorRecord_refl s
theorem sameErrorRecord_setRk (k : Fin 5) (v : Block) : (s.setRk k v).sameErrorRecord s := sameErrorRecord_refl s
theorem sameErrorRecord_setSStg (n v : Nibble) : (s.setSStg n v).sameErrorRecord s := sameErrorRecord_refl s
theorem sameErrorRecord_setSiStg (n v : Nibble) : (s.setSiStg n v).sameErrorRecord s := sameErrorRecord_refl s
theorem sameErrorRecord_setPStg (n v : Nibble) : (s.setPStg n v).sameErrorRecord s := sameErrorRecord_refl s
theorem sameErrorRecord_activate : s.activate.sameErrorRecord s := sameErrorRecord_refl s
theorem sameErrorRecord_invalidate : s.invalidate.sameErrorRecord s := sameErrorRecord_refl s

end

/-- All that a command can do to the error record: keep it, clear it, or record the error of its own that R182 lists. -/
inductive ErrorEffect (i : Instr) (s : State) : State → Prop where
  | kept {t : State} (ht : t.sameErrorRecord s) : ErrorEffect i s t
  | cleared (hi : i = .clrerr) : ErrorEffect i s s.clearErrors
  | raised {e : ErrorKind} {u : State} (he : i.possibleError = some e) (hu : u.sameErrorRecord s) :
      ErrorEffect i s (u.raiseError e (encode i))

/-! Each operand check has one error of its own. -/

theorem error_of_ent {s : State} {e : ErrorKind} (h : ent s = .error e) : e = .invalidMapping := by
  unfold ent at h
  split_ifs at h
  exact (Except.error.inj h).symm

theorem error_of_blk {s : State} {e : ErrorKind} (h : blk s = .error e) : e = .invalidBlockSize := by
  unfold blk at h
  split_ifs at h
  exact (Except.error.inj h).symm

theorem error_of_configured {s : State} {e : ErrorKind} (h : configured s = .error e) : e = .notConfigured := by
  unfold configured at h
  split_ifs at h
  exact (Except.error.inj h).symm

theorem keyIndex_of_wellFormed {n : Nibble} (h : decide (n.toNat ≤ 4) = true) : ∃ k, keyIndex n = .ok k :=
  ⟨_, keyIndex_of_lt (Nat.lt_succ_of_le (of_decide_eq_true h))⟩

/-- A command that is one check and then one change: its effect on the record follows from the check's error and from what the
change keeps. -/
theorem errorEffect_endCommand {i : Instr} {s t : State} {α : Type} {c : Except ErrorKind α} {f : α → State}
    (h : endCommand (encode i) s (c.map f) = .next t) (hc : ∀ e, c = .error e → i.possibleError = some e)
    (hf : ∀ a, (f a).sameErrorRecord s) : ErrorEffect i s t := by
  obtain ⟨a, -, rfl⟩ | ⟨e, he, rfl⟩ := endCommand_map_eq_next h
  · exact .kept (hf a)
  · exact .raised (hc e he) (sameErrorRecord_refl s)

/-- Every well-formed command, grouped by the check it makes. -/
theorem errorEffect_exec {i : Instr} {s t : State} (hwf : i.wellFormed = true) (h : exec i s = .next t) :
    ErrorEffect i s t := by
  cases i
  case nop =>
    cases h
    exact .kept (sameErrorRecord_refl s)
  case clrerr =>
    cases h
    exact .cleared rfl
  case commit =>
    obtain ⟨-, rfl⟩ | ⟨-, rfl⟩ := exec_commit_eq_next h
    · exact .kept (sameErrorRecord_activate s)
    · exact .raised rfl (sameErrorRecord_invalidate s)
  case wrrk n =>
    obtain ⟨k, hk⟩ := keyIndex_of_wellFormed hwf
    rw [exec_wrrk, hk] at h
    exact errorEffect_endCommand h (fun _ he => error_of_blk he ▸ rfl) (sameErrorRecord_setRk s k)
  case kmix n =>
    obtain ⟨k, hk⟩ := keyIndex_of_wellFormed hwf
    rw [exec_kmix, hk] at h
    exact errorEffect_endCommand h nofun fun _ => sameErrorRecord_setState s _
  case ldst | kmixd =>
    exact errorEffect_endCommand h (fun _ he => error_of_blk he ▸ rfl) fun _ => sameErrorRecord_setState s _
  case wrs n =>
    exact errorEffect_endCommand h (fun _ he => error_of_ent he ▸ rfl) (sameErrorRecord_setSStg s n)
  case wrsi n =>
    exact errorEffect_endCommand h (fun _ he => error_of_ent he ▸ rfl) (sameErrorRecord_setSiStg s n)
  case wrp n =>
    exact errorEffect_endCommand h (fun _ he => error_of_ent he ▸ rfl) (sameErrorRecord_setPStg s n)
  case sub | subi | perm | permi | enc | dec =>
    exact errorEffect_endCommand h (fun _ he => error_of_configured he ▸ rfl) fun _ => sameErrorRecord_setState s _

theorem possibleError_ne_illegalCommand (i : Instr) : i.possibleError ≠ some .illegalCommand := by
  cases i <;> simp [Instr.possibleError]

/-- A legal command does not raise `IllegalCommand` (R184): none has it as its own error, and the codes tell errors apart. -/
theorem exec_raises_no_illegalCommand {i : Instr} {s t : State} (hwf : i.wellFormed = true) (h : exec i s = .next t) :
    (i ≠ .clrerr → t.eCmd = s.eCmd) ∧ (t.eCmd = true → s.eCmd = true) ∧
      (t.lasterr = 3 → s.lasterr = 3 ∧ t.errcmd = s.errcmd) := by
  cases errorEffect_exec hwf h with
  | kept ht =>
    obtain ⟨hbit, hlast, hcmd⟩ := ht
    have hE : t.eCmd = s.eCmd := hbit .illegalCommand
    exact ⟨fun _ => hE, fun h => hE ▸ h, fun h => ⟨hlast ▸ h, hcmd⟩⟩
  | cleared hi => exact ⟨fun hn => absurd hi hn, by simp, by simp⟩
  | @raised e u he hu =>
    obtain ⟨hbit, -, -⟩ := hu
    have hne : e ≠ .illegalCommand := fun h => possibleError_ne_illegalCommand i (h ▸ he)
    have hE : (u.raiseError e (encode i)).eCmd = s.eCmd := by
      rw [State.raiseError_eCmd, decide_eq_false hne, Bool.or_false]
      exact hbit .illegalCommand
    exact ⟨fun _ => hE, fun h => hE ▸ h, fun h => absurd (code_injective (e' := .illegalCommand) h) hne⟩

/-- Settles O4: the illegal classes are the decode errors; a word of no class decodes to a well-formed command, and no such
command raises `IllegalCommand`. -/
theorem reservedWordsRaiseIllegalCommand : Obligations.ReservedWordsRaiseIllegalCommand := by
  intro w s
  split_ifs with hw <;> rw [← exists_describes_iff] at hw
  · exact issue_of_not_decode_ok (fun i hi => not_exists.2 ((decode_ok_iff w).1 ⟨i, hi⟩) hw) s
  · obtain ⟨i, hi⟩ := (decode_ok_iff w).2 (not_exists.1 hw)
    obtain ⟨t, ht⟩ := exec_completes i s
    have hwf : i.wellFormed = true := (hasFields_of_decode_ok hi).wellFormed
    exact ⟨i, t, hi, issue_of_decode_ok hi s, ht, exec_raises_no_illegalCommand hwf ht⟩

end Sys2Proof.Machine
end

section
/-! PROOF. The tables' family (41_config_tables.md): which staging tables are valid (R105), what the derived inverse P-box
does (R108), and what a failed COMMIT leaves (R107). The first two parts say once what an inverse on one side gives and
which bits a permutation sets; later families use them. -/

namespace Sys2Proof.Machine

/-! ### Tables that invert each other (R105) -/

/-- A table has finitely many entries, so an inverse on one side is an inverse on the other. -/
theorem lookup_lookup_comm {t u : Table} (h : ∀ x, lookup u (lookup t x) = x) (y : Nibble) :
    lookup t (lookup u y) = y := by
  have hleft : Function.LeftInverse (lookup u) (lookup t) := h
  exact hleft.rightInverse_of_surjective (Finite.surjective_of_injective hleft.injective) y

/-- A table that is undone by another is a bijection. -/
theorem existsUnique_lookup_of_leftInverse {t u : Table} (h : ∀ x, lookup u (lookup t x) = x) (v : Nibble) :
    ∃! x, lookup t x = v :=
  ⟨lookup u v, lookup_lookup_comm h v, fun x hx => hx ▸ (h x).symm⟩

/-! ### The bits of a permuted block (R121) -/

/-- Two blocks with the same bits, numbered as a table's entries are, are the same block. -/
theorem block_ext {a b : Block} (h : ∀ j : Nibble, a.getLsbD j.toNat = true ↔ b.getLsbD j.toNat = true) : a = b := by
  refine BitVec.eq_of_getLsbD_eq fun k hk => Bool.eq_iff_iff.2 ?_
  simpa [Nat.mod_eq_of_lt hk] using h (BitVec.ofNat 4 k)

theorem getLsbD_one_shiftLeft (n j : Nibble) : ((1 : Block) <<< n.toNat).getLsbD j.toNat = decide (n = j) := by
  revert n j; decide

/-- After any part of the loop of `permute`, the bits set are those set before and those to which a visited set
bit is sent. -/
theorem getLsbD_foldl_permute (s : Block) (q : Table) (l : List Nibble) (r : Block) (j : Nibble) :
    (l.foldl (fun r i => if s.getLsbD i.toNat then r ||| (1 : Block) <<< (lookup q i).toNat else r) r).getLsbD j.toNat
        = true ↔
      r.getLsbD j.toNat = true ∨ ∃ i ∈ l, s.getLsbD i.toNat = true ∧ lookup q i = j := by
  induction l generalizing r with
  | nil => simp
  | cons i l ih =>
    rw [List.foldl_cons, ih, List.exists_mem_cons_iff, ← or_assoc]
    refine or_congr_left ?_
    by_cases hi : s.getLsbD i.toNat = true
    · rw [if_pos hi, BitVec.getLsbD_or, getLsbD_one_shiftLeft]
      simp [hi]
    · simp [hi]

theorem getLsbD_permute_iff (s : Block) (q : Table) (j : Nibble) :
    (permute s q).getLsbD j.toNat = true ↔ ∃ i, s.getLsbD i.toNat = true ∧ lookup q i = j := by
  rw [permute, getLsbD_foldl_permute]
  simp [mem_nibbles]

/-- A bit sent through `p` and then `q` is back where it was, when `q` undoes `p` as a table (R108, R130). -/
theorem permute_permute {p q : Table} (h : ∀ i, lookup q (lookup p i) = i) (s : Block) : permute (permute s p) q = s := by
  refine block_ext fun j => ?_
  calc (permute (permute s p) q).getLsbD j.toNat = true
      ↔ ∃ i, (∃ k, s.getLsbD k.toNat = true ∧ lookup p k = i) ∧ lookup q i = j := by simp only [getLsbD_permute_iff]
    _ ↔ ∃ k, s.getLsbD k.toNat = true ∧ lookup q (lookup p k) = j := by simp
    _ ↔ s.getLsbD j.toNat = true := by simp [h]

/-- Settles O43: the loop of `inverse` inverts the table from the left, and a bit follows the tables. -/
theorem derivedInverseUndoesPermutation : Obligations.DerivedInverseUndoesPermutation := fun _ hp =>
  ⟨lookup_inverse_lookup hp, permute_permute (lookup_inverse_lookup hp)⟩

/-! ### A COMMIT that fails (R105, R107) -/

theorem exec_commit_of_not_valid {s : State} (h : valid s.sStg s.siStg s.pStg = false) :
    exec .commit s = .next { s with cfgValid := false, eMap := true, lasterr := 1, errcmd := 0x00000006 } := by
  rw [exec_commit, if_neg (by simp [h]), endCommand_error, raiseError_invalidMapping]
  rfl

/-- Settles O26: the third clause of R105 makes the inverse S-box a bijection and an inverse on the other side. -/
theorem validTablesAreInverseBijections : Obligations.ValidTablesAreInverseBijections := by
  refine fun s si p => ⟨valid_iff s si p, fun hvalid => ?_, ?_⟩
  · obtain ⟨-, -, hsi⟩ := (valid_iff s si p).1 hvalid
    exact ⟨existsUnique_lookup_of_leftInverse (lookup_lookup_comm hsi), lookup_lookup_comm hsi⟩
  · rintro hinvalid u rfl rfl rfl
    exact exec_commit_of_not_valid hinvalid

/-! ### The commands that read an active table (R186) -/

/-- Each of the six checks the configuration first and then makes one change. -/
theorem exec_tableCommand {i : Instr} (hi : i ∈ [Instr.sub, .subi, .perm, .permi, .enc, .dec]) (s : State) :
    ∃ f : Unit → State, exec i s = endCommand (encode i) s ((configured s).map f) := by
  simp only [List.mem_cons, List.not_mem_nil, or_false] at hi
  obtain rfl | rfl | rfl | rfl | rfl | rfl := hi
  exacts [⟨_, exec_sub s⟩, ⟨_, exec_subi s⟩, ⟨_, exec_perm s⟩, ⟨_, exec_permi s⟩, ⟨_, exec_enc s⟩, ⟨_, exec_dec s⟩]

theorem exec_tableCommand_of_not_configured {i : Instr} (hi : i ∈ [Instr.sub, .subi, .perm, .permi, .enc, .dec])
    {s : State} (h : s.cfgValid = false) :
    exec i s = .next { s with eCfg := true, lasterr := 4, errcmd := encode i } := by
  obtain ⟨f, hf⟩ := exec_tableCommand hi s
  rw [hf, configured_of_invalid h, Except.map, endCommand_error, raiseError_notConfigured]

/-- Settles O28: a failed COMMIT clears `CFG_VALID`, and the check of `CFG_VALID` stops the six commands. -/
theorem commitFailureBlocksTableCommands : Obligations.CommitFailureBlocksTableCommands :=
  ⟨fun _ => exec_commit_of_not_valid, fun _ _ h hi => exec_tableCommand_of_not_configured hi h⟩

end Sys2Proof.Machine
end

section
/-! PROOF. The round primitives' family (42_round_primitives.md): which nibble goes where in a substitution (R120, R129), and
what undoes each primitive (R130). -/

namespace Sys2Proof.Machine

/-! ### The nibbles of a block (R9) -/

/-- The concatenation that `substitute` builds has its arguments as its nibbles, the last one lowest. -/
theorem nibbleOf_append (a b c d : Nibble) :
    nibbleOf (a ++ b ++ c ++ d) 0 = d ∧ nibbleOf (a ++ b ++ c ++ d) 1 = c ∧
    nibbleOf (a ++ b ++ c ++ d) 2 = b ∧ nibbleOf (a ++ b ++ c ++ d) 3 = a := by
  unfold nibbleOf
  refine ⟨?_, ?_, ?_, ?_⟩
  · rw [BitVec.extractLsb'_append_eq_right]
  · rw [BitVec.extractLsb'_append_eq_of_le (by omega), BitVec.extractLsb'_append_eq_right]
  · rw [BitVec.extractLsb'_append_eq_of_le (by omega), BitVec.extractLsb'_append_eq_of_le (by omega),
      BitVec.extractLsb'_append_eq_right]
  · rw [BitVec.extractLsb'_append_eq_of_le (by omega), BitVec.extractLsb'_append_eq_of_le (by omega),
      BitVec.extractLsb'_append_eq_left]

/-- A block is the concatenation of its four nibbles. -/
theorem append_nibbleOf (s : Block) : nibbleOf s 3 ++ nibbleOf s 2 ++ nibbleOf s 1 ++ nibbleOf s 0 = s := by
  unfold nibbleOf
  rw [BitVec.extractLsb'_append_extractLsb'_eq_extractLsb' (by omega),
    BitVec.extractLsb'_append_extractLsb'_eq_extractLsb' (by omega),
    BitVec.extractLsb'_append_extractLsb'_eq_extractLsb' (by omega), BitVec.extractLsb'_eq_self]

/-! ### Substitution (R120) -/

/-- Lane `j` of the result depends on lane `j` of the block alone, and every lane uses the same table (R129). -/
theorem nibbleOf_substitute (s : Block) (t : Table) {j : Nat} (hj : j < 4) :
    nibbleOf (substitute s t) j = lookup t (nibbleOf s j) := by
  obtain ⟨h0, h1, h2, h3⟩ := nibbleOf_append (lookup t (nibbleOf s 3)) (lookup t (nibbleOf s 2)) (lookup t (nibbleOf s 1))
    (lookup t (nibbleOf s 0))
  match j, hj with
  | 0, _ => exact h0
  | 1, _ => exact h1
  | 2, _ => exact h2
  | 3, _ => exact h3

/-- Settles O40: the four lanes, one by one. -/
theorem substituteMapsEachNibble : Obligations.SubstituteMapsEachNibble := fun s t =>
  ⟨nibbleOf_substitute s t (j := 0) (by decide), nibbleOf_substitute s t (j := 1) (by decide),
    nibbleOf_substitute s t (j := 2) (by decide), nibbleOf_substitute s t (j := 3) (by decide)⟩

/-! ### What undoes each primitive (R130) -/

/-- A nibble sent through `t` and then `u` is back as it was, when `u` undoes `t` as a table. -/
theorem substitute_substitute {t u : Table} (h : ∀ x, lookup u (lookup t x) = x) (s : Block) :
    substitute (substitute s t) u = s := by
  have hlane {j : Nat} (hj : j < 4) : lookup u (nibbleOf (substitute s t) j) = nibbleOf s j := by
    rw [nibbleOf_substitute s t hj, h]
  calc substitute (substitute s t) u
      = nibbleOf s 3 ++ nibbleOf s 2 ++ nibbleOf s 1 ++ nibbleOf s 0 := by
        rw [substitute, hlane (by decide), hlane (by decide), hlane (by decide), hlane (by decide)]
    _ = s := append_nibbleOf s

theorem keyMix_keyMix (s k : Block) : keyMix (keyMix s k) k = s := by
  rw [keyMix, keyMix, BitVec.xor_assoc, BitVec.xor_self, BitVec.xor_zero]

/-- Settles O44: R31 names the inverse on one side, and an inverse on one side is an inverse on the other. -/
theorem primitivesUndoTheirInverses : Obligations.PrimitivesUndoTheirInverses := by
  intro s hs b k
  obtain ⟨-, hsi, -, hpi⟩ := hs
  exact ⟨substitute_substitute hsi b, substitute_substitute (lookup_lookup_comm hsi) b,
    permute_permute hpi b, permute_permute (lookup_lookup_comm hpi) b, keyMix_keyMix b k⟩

end Sys2Proof.Machine
end

section
/-! PROOF. The cipher's family (43_cipher.md): the rounds that ENC runs (R140), what ENC and DEC read (R146), and why decryption
and encryption undo each other (R144). -/

namespace Sys2Proof.Machine

/-! ### The rounds of the cipher (R140, R142) -/

/-- A round of `Encrypt` with the permutation, 1 to 3 (R140). -/
def encryptRound (sBox pBox : Table) (s k : Block) : Block := permute (substitute (keyMix s k) sBox) pBox

/-- A round of `Decrypt` with the permutation (R142). -/
def decryptRound (sInv pInv : Table) (s k : Block) : Block := substitute (permute (keyMix s k) pInv) sInv

theorem encrypt_eq_rounds (rk : KeySchedule) (sBox pBox : Table) (p : Block) :
    encrypt rk sBox pBox p =
      keyMix (substitute (keyMix
        (encryptRound sBox pBox (encryptRound sBox pBox (encryptRound sBox pBox p rk[0]) rk[1]) rk[2])
        rk[3]) sBox) rk[4] := rfl

theorem decrypt_eq_rounds (rk : KeySchedule) (sInv pInv : Table) (c : Block) :
    decrypt rk sInv pInv c =
      keyMix
        (decryptRound sInv pInv (decryptRound sInv pInv (decryptRound sInv pInv
          (substitute (keyMix c rk[4]) sInv) rk[3]) rk[2]) rk[1])
        rk[0] := rfl

/-! ### ENC and DEC on the machine (R141, R143) -/

theorem exec_dec_of_configured (s : State) (hv : s.cfgValid = true) :
    exec .dec s = .next (s.setState (decrypt s.rk s.siAct s.piAct s.state)) := by
  rw [exec_dec, configured_of_valid hv]
  rfl

/-- Settles O33: ENC in a configured block sets `STATE` to `Encrypt(STATE)`, which is the rounds of R140. -/
theorem encRunsFourRounds : Obligations.EncRunsFourRounds := by
  intro s hv
  rw [exec_enc_of_configured s hv, encrypt_eq_rounds]
  rfl

/-- Settles O48: the block each command writes is a function of what the two states agree on. -/
theorem cipherReadsOnlyStateKeysAndActiveTables : Obligations.CipherReadsOnlyStateKeysAndActiveTables := by
  intro s u hs hu hstate hrk hsAct hsiAct hpAct hpiAct
  refine ⟨⟨_, exec_enc_of_configured s hs, ?_⟩, ⟨_, exec_dec_of_configured s hs, ?_⟩⟩
  · rw [hstate, hrk, hsAct, hpAct]
    exact exec_enc_of_configured u hu
  · rw [hstate, hrk, hsiAct, hpiAct]
    exact exec_dec_of_configured u hu

/-! ### Decryption undoes encryption (R144) -/

section
variable {sBox sInv pBox pInv : Table}

/-- The rounds of the two ciphers are cut between different key mixes: a decryption round takes off the key mix after an
encryption round, its permutation and its substitution, and leaves the key mix before it to the next decryption round. -/
theorem decryptRound_keyMix_encryptRound (hs : ∀ x, lookup sInv (lookup sBox x) = x)
    (hp : ∀ i, lookup pInv (lookup pBox i) = i) (s k k' : Block) :
    decryptRound sInv pInv (keyMix (encryptRound sBox pBox s k) k') k' = keyMix s k := by
  rw [decryptRound, encryptRound, keyMix_keyMix, permute_permute hp, substitute_substitute hs]

/-- The last round has no permutation, so its key mix and substitution go first; then the three rounds go from the last to the
first, and the first key mix remains. -/
theorem decrypt_encrypt (hs : ∀ x, lookup sInv (lookup sBox x) = x) (hp : ∀ i, lookup pInv (lookup pBox i) = i)
    (rk : KeySchedule) (p : Block) : decrypt rk sInv pInv (encrypt rk sBox pBox p) = p := by
  have hround := decryptRound_keyMix_encryptRound hs hp
  rw [encrypt_eq_rounds, decrypt_eq_rounds, keyMix_keyMix, substitute_substitute hs, hround, hround, hround, keyMix_keyMix]

/-- `Encrypt` is injective on a finite set, so its inverse on one side is its inverse on the other. -/
theorem encrypt_decrypt (hs : ∀ x, lookup sInv (lookup sBox x) = x) (hp : ∀ i, lookup pInv (lookup pBox i) = i)
    (rk : KeySchedule) (c : Block) : encrypt rk sBox pBox (decrypt rk sInv pInv c) = c := by
  have hleft : Function.LeftInverse (decrypt rk sInv pInv) (encrypt rk sBox pBox) := decrypt_encrypt hs hp rk
  exact hleft.rightInverse_of_surjective (Finite.surjective_of_injective hleft.injective) c

end

/-- Settles O45: R31 says that the inverse tables undo the active ones. -/
theorem decryptUndoesEncrypt : Obligations.DecryptUndoesEncrypt := by
  intro s htables rk p
  obtain ⟨-, hs, -, hp⟩ := htables
  exact ⟨decrypt_encrypt hs hp rk p, encrypt_decrypt hs hp rk p⟩

end Sys2Proof.Machine
end

section
/-! PROOF. The keys and control family (44_keys_and_control.md): that NOP does nothing and is the only word of its opcode (R164),
and that CLRERR clears the error record and nothing else (R165). -/

namespace Sys2Proof

/-- A word of an illegal class does not decode (R75). -/
theorem decode_error_of_describes {w : Word} {e : DecodeError} (h : e.describes w) : ∃ e', decode w = .error e' := by
  cases hd : decode w with
  | ok i => exact absurd h ((hasFields_of_decode_ok hd).not_describes e)
  | error e' => exact ⟨e', rfl⟩

end Sys2Proof

namespace Sys2Proof.Machine

/-- Settles O20: NOP takes no index, so a word with its opcode and another nonzero field is in an illegal class. -/
theorem nopHasNoEffect : Obligations.NopHasNoEffect := by
  refine ⟨rfl, rfl, exec_nop, ?_⟩
  rintro w hopc (hidx | hrsv)
  · have hbad : DecodeError.indexNotZero.describes w := ⟨hopc ▸ by decide, hidx⟩
    exact decode_error_of_describes hbad
  · have hbad : DecodeError.reservedBits.describes w := hrsv
    exact decode_error_of_describes hbad

/-! ### An empty error record (R165) -/

/-- In a coherent record with no error bit set, no code or word is left either. -/
theorem lasterr_errcmd_of_no_error {s : State} (hinv : s.errorsInv) (hnone : s.anyError = false) :
    s.lasterr = 0 ∧ s.errcmd = 0 := by
  unfold State.errorsInv at hinv
  split_ifs at hinv with hlast
  · exact ⟨hlast, hinv.2⟩
  · obtain ⟨e, -, he⟩ := hinv
    have hany : s.anyError = true := (anyError_eq_true_iff s).2 ⟨e, he⟩
    exact absurd (hnone.symm.trans hany) Bool.false_ne_true

theorem clearErrors_of_no_error {s : State} (hinv : s.errorsInv) (hnone : s.anyError = false) : s.clearErrors = s := by
  obtain ⟨hlast, hcmd⟩ := lasterr_errcmd_of_no_error hinv hnone
  simp only [State.anyError, Bool.or_eq_false_iff] at hnone
  obtain ⟨⟨⟨hmap, hblk⟩, hill⟩, hcfg⟩ := hnone
  cases s
  subst hmap hblk hill hcfg hlast hcmd
  rfl

@[simp] theorem errIrq_clearErrors (s : State) : s.clearErrors.errIrq = false := by
  rw [State.errIrq, anyError_clearErrors, Bool.and_false]

/-- Settles O21: CLRERR answers `clearErrors`, which leaves a coherent record without errors as it is. -/
theorem clrerrClearsErrorRecord : Obligations.ClrerrClearsErrorRecord :=
  ⟨rfl, fun s => ⟨s.clearErrors, exec_clrerr s, rfl, errIrq_clearErrors s, clearErrors_of_no_error⟩⟩

end Sys2Proof.Machine
end

section
/-! PROOF. The errors' family (60_exceptions.md): the error a word at CMD can raise and what else it changes (R182, R183, R188),
when `InvalidBlockSize` is raised (R185), which events write `CFG_VALID` (R186), and the interrupt line (R190). The first part
says once what a command does to the error record and to the rest of the state; the statements use it. -/

namespace Sys2Proof

/-- A word that decodes is the encoding of its command (R71, R72). -/
theorem encode_of_decode_ok {w : Word} {i : Instr} (h : decode w = .ok i) : encode i = w := by
  obtain ⟨hrsv, hopc, hidx, -⟩ := hasFields_of_decode_ok h
  exact word_ext ((opcOf_encode i).trans hopc.symm) ((idxOf_encode i).trans hidx.symm) ((rsvOf_encode i).trans hrsv.symm)

end Sys2Proof

namespace Sys2Proof.Machine

/-! ### The one error of a command (R182, R183) -/

/-- `ErrorEffect` with its frame: the command that raises its error changes only the error record, but for a COMMIT, whose
`CFG_VALID` goes too. -/
theorem exec_raises_only_own_error {i : Instr} {s t : State} (hwf : i.wellFormed = true) (h : exec i s = .next t) :
    (i ≠ .clrerr ∧ t.sameErrorRecord s) ∨
    (i = .clrerr ∧ t = s.clearErrors) ∨
    (∃ e, i.possibleError = some e ∧ i ≠ .commit ∧ t = s.raiseError e (encode i)) ∨
    (i = .commit ∧ t = s.invalidate.raiseError .invalidMapping (encode .commit)) := by
  by_cases hclr : i = .clrerr
  · subst hclr
    exact .inr (.inl ⟨rfl, by simpa [exec_clrerr] using h.symm⟩)
  by_cases hcommit : i = .commit
  · subst hcommit
    obtain ⟨-, rfl⟩ | ⟨-, rfl⟩ := exec_commit_eq_next h
    · exact .inl ⟨hclr, sameErrorRecord_activate s⟩
    · exact .inr (.inr (.inr ⟨rfl, rfl⟩))
  obtain ⟨e, rfl⟩ | ⟨-, rfl⟩ | ⟨hi, -⟩ | ⟨v, rfl⟩ | ⟨n, k, v, -, rfl⟩ | ⟨n, v, -, rfl⟩ | ⟨n, v, -, rfl⟩ | ⟨n, v, -, rfl⟩ :=
    exec_eq_next_of_ne_commit hcommit h
  · generalize ht : s.raiseError e (encode i) = t at h
    cases errorEffect_exec hwf h with
    | kept hkept => exact .inl ⟨hclr, hkept⟩
    | cleared hi => exact absurd hi hclr
    | @raised e' u he hu =>
      have hcode : e.code = e'.code := congrArg State.lasterr ht
      exact .inr (.inr (.inl ⟨e, code_injective hcode ▸ he, hcommit, ht.symm⟩))
  · exact .inl ⟨hclr, sameErrorRecord_refl _⟩
  · exact absurd hi hclr
  · exact .inl ⟨hclr, sameErrorRecord_setState s v⟩
  · exact .inl ⟨hclr, sameErrorRecord_setRk s k v⟩
  · exact .inl ⟨hclr, sameErrorRecord_setSStg s n v⟩
  · exact .inl ⟨hclr, sameErrorRecord_setSiStg s n v⟩
  · exact .inl ⟨hclr, sameErrorRecord_setPStg s n v⟩

/-- Settles O37: a word that decodes is its command's encoding, so `ERRCMD` takes the word; then error by error. -/
theorem commandRaisesOnlyItsOwnError : Obligations.CommandRaisesOnlyItsOwnError := by
  intro w s t h
  cases hd : decode w with
  | error e =>
    rw [issue_of_decode_error hd, raiseError_illegalCommand] at h
    cases h
    exact .inl ⟨nofun, rfl⟩
  | ok i =>
    rw [issue_of_decode_ok hd] at h
    refine .inr ⟨i, rfl, ?_⟩
    obtain ⟨hclr, hbit, hlast, hcmd⟩ | ⟨hclr, -⟩ | ⟨e, he, hcommit, rfl⟩ | ⟨rfl, rfl⟩ :=
      exec_raises_only_own_error (hasFields_of_decode_ok hd).wellFormed h
    · exact .inl ⟨hclr, hbit .invalidMapping, hbit .invalidBlockSize, hbit .illegalCommand, hbit .notConfigured, hlast, hcmd⟩
    · exact .inr (.inl hclr)
    · rw [encode_of_decode_ok hd]
      cases e with
      | invalidBlockSize => exact .inr (.inr (.inl ⟨he, raiseError_invalidBlockSize s w⟩))
      | notConfigured => exact .inr (.inr (.inr (.inl ⟨he, raiseError_notConfigured s w⟩)))
      | invalidMapping => exact .inr (.inr (.inr (.inr (.inl ⟨he, hcommit, raiseError_invalidMapping s w⟩))))
      | illegalCommand => exact absurd he (possibleError_ne_illegalCommand i)
    · rw [encode_of_decode_ok hd, raiseError_invalidMapping]
      exact .inr (.inr (.inr (.inr (.inr ⟨rfl, rfl⟩))))

/-! ### InvalidBlockSize (R185) -/

theorem endCommand_blk_of_strict_wide {s : State} (hs : s.strict = true) (hwide : s.din.extractLsb' 16 16 ≠ 0) (w : Word)
    (f : Block → State) :
    endCommand w s ((blk s).map f) = .next { s with eBlk := true, lasterr := 2, errcmd := w } := by
  rw [blk_of_strict_wide hs hwide, Except.map, endCommand_error, raiseError_invalidBlockSize]

/-- With `STRICT` 0 the operand check masks, so a command that has `InvalidBlockSize` as its own error raises nothing. -/
theorem exec_sameErrorRecord_of_not_strict {i : Instr} {s t : State} (hs : s.strict = false) (hwf : i.wellFormed = true)
    (hi : i.possibleError = some .invalidBlockSize) (h : exec i s = .next t) : t.sameErrorRecord s := by
  have hblk : blk s = .ok (s.din.extractLsb' 0 16) := blk_of_fits (.inl hs)
  cases i
  case ldst =>
    rw [exec_ldst, hblk] at h
    cases h
    exact sameErrorRecord_setState s _
  case kmixd =>
    rw [exec_kmixd, hblk] at h
    cases h
    exact sameErrorRecord_setState s _
  case wrrk n =>
    obtain ⟨k, hk⟩ := keyIndex_of_wellFormed hwf
    rw [exec_wrrk, hk, hblk] at h
    cases h
    exact sameErrorRecord_setRk s k _
  all_goals cases hi

/-- Recording one error sets neither the bit nor the code of another. -/
theorem raiseError_raises_no_other (s : State) {e e' : ErrorKind} (hne : e' ≠ e) (w : Word) :
    ((s.raiseError e' w).errorBit e = true → s.errorBit e = true) ∧
      ((s.raiseError e' w).lasterr = e.code → s.lasterr = e.code) :=
  ⟨by simp [hne], fun h => absurd (code_injective h) hne⟩

/-- Of an error that is not a command's own, the command sets neither the bit nor the code. -/
theorem ErrorEffect.raises_no_other {i : Instr} {s t : State} {e : ErrorKind} (h : ErrorEffect i s t)
    (hne : i.possibleError ≠ some e) :
    (t.errorBit e = true → s.errorBit e = true) ∧ (t.lasterr = e.code → s.lasterr = e.code) := by
  cases h with
  | kept ht =>
    obtain ⟨hbit, hlast, -⟩ := ht
    exact ⟨fun h => hbit e ▸ h, fun h => hlast ▸ h⟩
  | cleared hi => exact ⟨by simp, fun h => absurd h.symm (code_ne_zero e)⟩
  | @raised e' u he hu =>
    obtain ⟨hbit, hlast, -⟩ := hu
    have hother : e' ≠ e := fun h => hne (h ▸ he)
    obtain ⟨hbits, hcode⟩ := raiseError_raises_no_other u hother (encode i)
    exact ⟨fun h => hbit e ▸ hbits h, fun h => hlast ▸ hcode h⟩

/-- Settles O35: in strict mode the operand check answers the error; with `STRICT` 0 a word is no command, a command whose own
error is another, or a command whose operand check passes. -/
theorem blockSizeErrorOnlyInStrictMode : Obligations.BlockSizeErrorOnlyInStrictMode := by
  refine ⟨fun s i hs hwide hi => ⟨?_, ?_, ?_⟩, fun s t w hs h => ?_⟩
  · exact endCommand_blk_of_strict_wide hs hwide _ _
  · rw [exec_wrrk, keyIndex_of_lt hi]
    exact endCommand_blk_of_strict_wide hs hwide _ _
  · exact endCommand_blk_of_strict_wide hs hwide _ _
  · cases hd : decode w with
    | error e =>
      rw [issue_of_decode_error hd] at h
      cases h
      have hne : ErrorKind.illegalCommand ≠ .invalidBlockSize := nofun
      exact raiseError_raises_no_other s hne w
    | ok i =>
      rw [issue_of_decode_ok hd] at h
      have hwf : i.wellFormed = true := (hasFields_of_decode_ok hd).wellFormed
      by_cases hown : i.possibleError = some .invalidBlockSize
      · obtain ⟨hbit, hlast, -⟩ := exec_sameErrorRecord_of_not_strict hs hwf hown h
        have hblk : t.eBlk = s.eBlk := hbit .invalidBlockSize
        exact ⟨fun h => hblk ▸ h, fun h => hlast ▸ h⟩
      · exact (errorEffect_exec hwf h).raises_no_other hown

/-! ### What writes CFG_VALID (R186) -/

/-- COMMIT leaves in `CFG_VALID` whether the staging tables are valid; no other command writes it. -/
theorem exec_cfgValid {i : Instr} {s t : State} (h : exec i s = .next t) :
    t.cfgValid = s.cfgValid ∨ (i = .commit ∧ t.cfgValid = valid s.sStg s.siStg s.pStg) := by
  by_cases hi : i = .commit
  · subst hi
    refine .inr ⟨rfl, ?_⟩
    obtain ⟨hv, rfl⟩ | ⟨hv, rfl⟩ := exec_commit_eq_next h
    · exact hv.symm
    · exact hv.symm
  · left
    obtain ⟨e, rfl⟩ | ⟨-, rfl⟩ | ⟨-, rfl⟩ | ⟨v, rfl⟩ | ⟨n, k, v, -, rfl⟩ | ⟨n, v, -, rfl⟩ | ⟨n, v, -, rfl⟩ |
      ⟨n, v, -, rfl⟩ := exec_eq_next_of_ne_commit hi h <;> rfl

theorem issue_cfgValid {w : Word} {s t : State} (h : issue w s = .next t) :
    t.cfgValid = s.cfgValid ∨ (w = 0x00000006 ∧ t.cfgValid = valid s.sStg s.siStg s.pStg) := by
  cases hd : decode w with
  | error e =>
    rw [issue_of_decode_error hd] at h
    cases h
    exact .inl rfl
  | ok i =>
    obtain hkept | ⟨rfl, hv⟩ := exec_cfgValid (issue_of_decode_ok hd s ▸ h)
    · exact .inl hkept
    · have hw : encode .commit = w := encode_of_decode_ok hd
      exact .inr ⟨hw ▸ by decide, hv⟩

@[simp] theorem cfgValid_writeReg (s : State) (off : Nat) (v : Word) : (writeReg s off v).cfgValid = s.cfgValid := by
  unfold writeReg
  split_ifs <;> rfl

/-- All that a step can do to `CFG_VALID`: keep it, write a COMMIT's verdict on the staging tables, or set it at reset. -/
theorem step_cfgValid {s t : State} (h : step s = .next t) :
    t.cfgValid = s.cfgValid ∨
    (s.pending.head? = some (.write ⟨0x0C, 4⟩ 0x00000006) ∧ t.cfgValid = valid s.sStg s.siStg s.pStg) ∨
    ((s.pending.head? = some .reset ∨ ∃ w, s.pending.head? = some (.resetDuring w)) ∧ t.cfgValid = true) := by
  obtain ⟨-, rfl⟩ | ⟨e, rest, hp, he⟩ := step_eq_next h
  · exact .inl rfl
  rw [hp, List.head?_cons]
  obtain ⟨a, -, -, rfl⟩ | ⟨a, v, -, -, -, rfl⟩ | ⟨w, u, rfl, hu, rfl⟩ | ⟨rfl, rfl⟩ | ⟨w, rfl, rfl⟩ := serve_eq_next he
  · exact .inl rfl
  · exact .inl (by simp)
  · obtain hkept | ⟨rfl, hv⟩ := issue_cfgValid hu
    · exact .inl hkept
    · exact .inr (.inl ⟨rfl, hv⟩)
  · exact .inr (.inr ⟨.inl rfl, rfl⟩)
  · exact .inr (.inr ⟨.inr ⟨w, rfl⟩, rfl⟩)

/-- Settles O36: the check of `CFG_VALID` stops the six commands, and what writes `CFG_VALID` also says what it writes. -/
theorem notConfiguredUntilCommitPasses : Obligations.NotConfiguredUntilCommitPasses := by
  refine ⟨fun s hs i hi => exec_tableCommand_of_not_configured hi hs, fun s t h hs ht => ?_, fun s t h hs ht => ?_⟩
  · obtain hkept | ⟨hcommit, hv⟩ | ⟨-, hset⟩ := step_cfgValid h
    · exact absurd (hs.symm.trans (hkept.symm.trans ht)) (by decide)
    · exact ⟨hcommit, hv.symm.trans ht⟩
    · exact absurd (hset.symm.trans ht) (by decide)
  · obtain hkept | ⟨hcommit, hv⟩ | ⟨hreset, -⟩ := step_cfgValid h
    · exact absurd (hs.symm.trans (hkept.symm.trans ht)) (by decide)
    · exact .inl ⟨hcommit, hv.symm.trans ht⟩
    · exact .inr hreset

/-! ### The interrupt line (R190) -/

@[simp] theorem errIrq_raiseError (s : State) (e : ErrorKind) (w : Word) : (s.raiseError e w).errIrq = s.errie := by
  rw [State.errIrq, anyError_raiseError, Bool.and_true, State.raiseError_errie]

/-- A word that leaves an error code where there was none has raised an error, so the line is `ERRIE`. -/
theorem errIrq_of_first_error {w : Word} {s t : State} (hnone : s.lasterr = 0) (h : issue w s = .next t)
    (hsome : t.lasterr ≠ 0) : t.errIrq = s.errie := by
  cases hd : decode w with
  | error e =>
    rw [issue_of_decode_error hd] at h
    cases h
    exact errIrq_raiseError s _ w
  | ok i =>
    rw [issue_of_decode_ok hd] at h
    obtain ⟨-, -, hlast, -⟩ | ⟨-, rfl⟩ | ⟨e, -, -, rfl⟩ | ⟨-, rfl⟩ :=
      exec_raises_only_own_error (hasFields_of_decode_ok hd).wellFormed h
    · exact absurd (hlast.trans hnone) hsome
    · exact absurd (State.clearErrors_lasterr s) hsome
    · exact errIrq_raiseError s e _
    · exact errIrq_raiseError s.invalidate _ _

/-- Settles O39: the line is a function of the state; then what each event leaves of `ERRIE` and of the error bits. -/
theorem errIrqFollowsErrorBits : Obligations.ErrIrqFollowsErrorBits := by
  refine ⟨fun _ => rfl, fun s t w hie hnone h hsome => ?_, fun s t v rest hp h => ?_, fun s t h => ?_, fun s t rest hp h => ?_⟩
  · rw [errIrq_of_first_error hnone h hsome, hie]
  · rw [step_write_register (off := ctrlOffset) hp (by decide) (by decide) (by decide), writeReg_ctrl] at h
    cases h
    rfl
  · rw [exec_clrerr, endCommand_ok] at h
    cases h
    exact errIrq_clearErrors s
  · rw [step_cons hp] at h
    cases h
    rfl

end Sys2Proof.Machine
end

section
/-! PROOF. Command words (30_encoding.md): decoding and encoding are inverse to each other on the legal words (R71 to R74). -/

namespace Sys2Proof

/-! ### Decoding an encoded command (R71, R73) -/

/-- The row of R73's opcode map that the word of a command falls into, its index check included. -/
theorem decode_encode {i : Instr} (h : i.wellFormed = true) : decode (encode i) = .ok i := by
  rw [decode, if_pos (rsvOf_encode i), opcOf_encode, idxOf_encode]
  cases i
  case wrrk n | kmix n => exact (withKeyIndex_eq_ok_iff n _ _).2 ⟨of_decide_eq_true h, rfl⟩
  case wrs n | wrsi n | wrp n => rfl
  case nop | ldst | commit | clrerr | sub | subi | perm | permi | kmixd | enc | dec =>
    exact (withoutIndex_eq_ok_iff 0 _ _).2 ⟨rfl, rfl⟩

/-- Settles O1: the encoder writes the three fields, and the opcode selects the command's own row. -/
theorem decodeOfEncodeIsIdentity : Obligations.DecodeOfEncodeIsIdentity := fun _ => decode_encode

/-- Settles O2: the decoder's answer fixes all three fields of the word. -/
theorem encodeOfDecodeIsIdentity : Obligations.EncodeOfDecodeIsIdentity := fun _ _ h =>
  ⟨encode_of_decode_ok h, (hasFields_of_decode_ok h).wellFormed⟩

/-- Settles O5: six closed words. -/
theorem sampleWordsDecode : Obligations.SampleWordsDecode := by
  unfold Obligations.SampleWordsDecode
  decide

end Sys2Proof
end

section
/-! PROOF. The error record along a run (60_exceptions.md, 10_state.md section 4): what each step does to it, that it stays
coherent, and that an error bit is sticky. -/

namespace Sys2Proof.Machine

/-! ### States with the same error record -/

theorem State.sameErrorRecord.anyError {t s : State} (h : t.sameErrorRecord s) : t.anyError = s.anyError := by
  obtain ⟨hbit, -, -⟩ := h
  rw [Bool.eq_iff_iff, anyError_eq_true_iff, anyError_eq_true_iff]
  simp only [hbit]

theorem State.sameErrorRecord.errorsInv_iff {t s : State} (h : t.sameErrorRecord s) : t.errorsInv ↔ s.errorsInv := by
  have hany := h.anyError
  obtain ⟨hbit, hlast, hcmd⟩ := h
  simp only [State.errorsInv, hbit, hlast, hcmd, hany]

theorem State.sameErrorRecord.trans {t u s : State} (htu : t.sameErrorRecord u) (hus : u.sameErrorRecord s) :
    t.sameErrorRecord s := by
  obtain ⟨hbit, hlast, hcmd⟩ := htu
  obtain ⟨hbit', hlast', hcmd'⟩ := hus
  exact ⟨fun e => (hbit e).trans (hbit' e), hlast.trans hlast', hcmd.trans hcmd'⟩

section
variable (s : State)

theorem sameErrorRecord_respond (r : Response) : (s.respond r).sameErrorRecord s := sameErrorRecord_refl s
theorem sameErrorRecord_resetBlock : s.resetBlock.sameErrorRecord State.reset := sameErrorRecord_refl State.reset

theorem sameErrorRecord_writeReg (off : Nat) (v : Word) : (writeReg s off v).sameErrorRecord s := by
  unfold writeReg
  split_ifs <;> exact sameErrorRecord_refl s

/-- CLRERR leaves the error record of reset (R165). -/
theorem sameErrorRecord_clearErrors : s.clearErrors.sameErrorRecord State.reset :=
  ⟨fun e => by cases e <;> rfl, rfl, rfl⟩

end

/-! ### What a step does to the error record (R165, R183, R210) -/

/-- The events that clear the error record: a CMD write of the CLRERR word, and the two resets. -/
def PortEvent.clearsErrors (e : PortEvent) : Prop :=
  e = .write ⟨0x0C, 4⟩ 0x00000007 ∨ e = .reset ∨ ∃ w, e = .resetDuring w

/-- The error record of `t` is that of `s` with one error recorded on it. -/
def State.recordsErrorOn (t s : State) : Prop :=
  ∃ (u : State) (e : ErrorKind) (w : Word), u.sameErrorRecord s ∧ t.sameErrorRecord (u.raiseError e w)

theorem issue_errorRecord {w : Word} {s t : State} (h : issue w s = .next t) :
    t.sameErrorRecord s ∨ (w = 0x00000007 ∧ t.sameErrorRecord State.reset) ∨ t.recordsErrorOn s := by
  cases hd : decode w with
  | error e =>
    rw [issue_of_decode_error hd] at h
    cases h
    exact .inr (.inr ⟨s, _, _, sameErrorRecord_refl _, sameErrorRecord_refl _⟩)
  | ok i =>
    rw [issue_of_decode_ok hd] at h
    cases errorEffect_exec (hasFields_of_decode_ok hd).wellFormed h with
    | kept ht => exact .inl ht
    | cleared hi =>
      subst hi
      have hw : encode .clrerr = w := encode_of_decode_ok hd
      exact .inr (.inl ⟨hw ▸ by decide, sameErrorRecord_clearErrors s⟩)
    | raised he hu => exact .inr (.inr ⟨_, _, _, hu, sameErrorRecord_refl _⟩)

/-- All that a step can do to the error record: keep it, clear it at one of the clearing events, or record one error. -/
theorem step_errorRecord {s t : State} (h : step s = .next t) :
    t.sameErrorRecord s ∨ ((∃ e, s.pending.head? = some e ∧ e.clearsErrors) ∧ t.sameErrorRecord State.reset) ∨
      t.recordsErrorOn s := by
  obtain ⟨-, rfl⟩ | ⟨e, rest, hp, he⟩ := step_eq_next h
  · exact .inl (sameErrorRecord_refl t)
  rw [hp, List.head?_cons]
  obtain ⟨a, -, -, rfl⟩ | ⟨a, v, -, -, -, rfl⟩ | ⟨w, u, rfl, hu, rfl⟩ | ⟨rfl, rfl⟩ | ⟨w, rfl, rfl⟩ := serve_eq_next he
  · exact .inl (sameErrorRecord_refl s)
  · exact .inl (sameErrorRecord_writeReg (s.accept rest) a.offset v)
  · have hdone := sameErrorRecord_respond u .completion
    obtain hkept | ⟨rfl, hcleared⟩ | ⟨v, k, w', hv, hraised⟩ := issue_errorRecord hu
    · exact .inl (hdone.trans hkept)
    · exact .inr (.inl ⟨⟨_, rfl, .inl rfl⟩, hdone.trans hcleared⟩)
    · exact .inr (.inr ⟨v, k, w', hv, hdone.trans hraised⟩)
  · exact .inr (.inl ⟨⟨_, rfl, .inr (.inl rfl)⟩, sameErrorRecord_resetBlock _⟩)
  · exact .inr (.inl ⟨⟨_, rfl, .inr (.inr ⟨w, rfl⟩)⟩, sameErrorRecord_resetBlock (s.accept rest)⟩)

/-! ### The error record stays coherent (R181, R183) -/

theorem errorsInv_reset : State.reset.errorsInv := ⟨rfl, rfl⟩

/-- Recording an error makes the record coherent, whatever it was: `LASTERR` is the code of the bit just set. -/
theorem errorsInv_raiseError (s : State) (e : ErrorKind) (w : Word) : (s.raiseError e w).errorsInv := by
  have hlast : (s.raiseError e w).lasterr ≠ 0 := code_ne_zero e
  rw [State.errorsInv, if_neg hlast]
  exact ⟨e, rfl, by simp⟩

/-- Settles O19: a kept record is as coherent as before, a cleared one is that of reset, and recording an error makes it
coherent. -/
theorem everyStepKeepsErrorRecordCoherent : Obligations.EveryStepKeepsErrorRecordCoherent := by
  intro s t hs h
  obtain hkept | ⟨-, hcleared⟩ | ⟨u, e, w, -, hraised⟩ := step_errorRecord h
  · exact hkept.errorsInv_iff.2 hs
  · exact hcleared.errorsInv_iff.2 errorsInv_reset
  · exact hraised.errorsInv_iff.2 (errorsInv_raiseError u e w)

/-- Settles O17: the base case of the two invariants that every step keeps. -/
theorem resetHasTheInvariant : Obligations.ResetHasTheInvariant := ⟨tablesInv_reset, errorsInv_reset⟩

/-- Settles O38: a step that keeps the record or records an error keeps the bits that are set. -/
theorem errorBitsAreSticky : Obligations.ErrorBitsAreSticky := by
  intro s t e h hset hclear
  obtain ⟨hbit, -⟩ | ⟨⟨ev, hhead, hev⟩, -⟩ | ⟨u, e', w, ⟨hu, -⟩, ⟨hbit, -⟩⟩ := step_errorRecord h
  · exact absurd ((hbit e).trans hset) (by simp [hclear])
  · rw [hhead]
    simpa [PortEvent.clearsErrors] using hev
  · have hstill : t.errorBit e = true := by simp [hbit, hu, hset]
    exact absurd hstill (by simp [hclear])

end Sys2Proof.Machine
end

section
/-! PROOF. The host's port (20_memory.md, 70_reset_and_hazards.md): what one event does there (R51, R58, R70, R210, R212), that
admitted events never stop the machine, and what a program's run and observation are made of (R214, R218). The first two
parts say once what a command and a step do at the port and that they look at nothing there; the statements use them. -/

namespace Sys2Proof.Machine

/-! ### Commands and the port -/

/-- The two states hold the same of what the model adds for the host's side. -/
def State.samePort (t s : State) : Prop := t.pending = s.pending ∧ t.responses = s.responses ∧ t.draws = s.draws

theorem exec_samePort {i : Instr} {s t : State} (h : exec i s = .next t) : t.samePort s := by
  by_cases hi : i = .commit
  · subst hi
    obtain ⟨-, rfl⟩ | ⟨-, rfl⟩ := exec_commit_eq_next h <;> exact ⟨rfl, rfl, rfl⟩
  · obtain ⟨e, rfl⟩ | ⟨-, rfl⟩ | ⟨-, rfl⟩ | ⟨v, rfl⟩ | ⟨n, k, v, -, rfl⟩ | ⟨n, v, -, rfl⟩ | ⟨n, v, -, rfl⟩ |
      ⟨n, v, -, rfl⟩ := exec_eq_next_of_ne_commit hi h <;> exact ⟨rfl, rfl, rfl⟩

theorem issue_samePort {w : Word} {s t : State} (h : issue w s = .next t) : t.samePort s := by
  cases hd : decode w with
  | ok i => exact exec_samePort (issue_of_decode_ok hd s ▸ h)
  | error e =>
    rw [issue_of_decode_error hd] at h
    cases h
    exact ⟨rfl, rfl, rfl⟩

/-- Settles O49: a word is a command, which ends with its result or its error, or no command, which is an error too. -/
theorem everyCommandCompletes : Obligations.EveryCommandCompletes := by
  intro w s
  obtain ⟨t, ht⟩ := issue_completes w s
  exact ⟨t, ht, issue_samePort ht⟩

/-! ### What one step does at the port -/

/-- The state with other events waiting and other answers given. -/
def State.withPort (s : State) (p : List PortEvent) (r : List Response) : State := { s with pending := p, responses := r }

@[simp] theorem State.withPort_pending (s : State) (p : List PortEvent) (r : List Response) :
    (s.withPort p r).pending = p := rfl

@[simp] theorem State.withPort_responses (s : State) (p : List PortEvent) (r : List Response) :
    (s.withPort p r).responses = r := rfl

@[simp] theorem State.withPort_withPort (s : State) (p p' : List PortEvent) (r r' : List Response) :
    (s.withPort p r).withPort p' r' = s.withPort p' r' := rfl

/-- Handing the port a program only appends it to what waits. -/
theorem State.load_eq_withPort (s : State) (q : List PortEvent) :
    s.load q = s.withPort (s.pending ++ q) s.responses := rfl

theorem writeReg_withPort (s : State) (p : List PortEvent) (r : List Response) (off : Nat) (v : Word) :
    writeReg (s.withPort p r) off v = (writeReg s off v).withPort p r := by
  unfold writeReg
  split_ifs <;> rfl

@[simp] theorem writeReg_pending (s : State) (off : Nat) (v : Word) : (writeReg s off v).pending = s.pending := by
  unfold writeReg
  split_ifs <;> rfl

@[simp] theorem writeReg_responses (s : State) (off : Nat) (v : Word) :
    (writeReg s off v).responses = s.responses := by
  unfold writeReg
  split_ifs <;> rfl

/-- What the port answers to an event it serves in `s`: nothing to a reset between transactions (R219). -/
def PortEvent.answers (e : PortEvent) (s : State) : List Response :=
  match e with
  | .read a => [.value (readReg s a.offset)]
  | .write _ _ => [.completion]
  | .straddle _ _ => []
  | .reset => []
  | .resetDuring _ => [.cutShort (Config.cutShortResponse s.draws)]

@[simp] theorem PortEvent.answers_accept (e : PortEvent) (s : State) (rest : List PortEvent) :
    e.answers (s.accept rest) = e.answers s := by
  cases e <;> rfl

/-- The guard lets an admitted access through, so that serving it is its effect. -/
theorem serve_read_of_admitted {a : Access} (h : (PortEvent.read a).admitted = true) (s : State) :
    serve (.read a) s = .next (s.respond (.value (readReg s a.offset))) :=
  guardAccess_of_admitted (of_decide_eq_true h) _

theorem serve_write_of_admitted {a : Access} {v : Word} (h : (PortEvent.write a v).admitted = true) (s : State) :
    serve (.write a v) s = serveWrite a.offset v s :=
  guardAccess_of_admitted (of_decide_eq_true h) _

/-- Serving an event takes none from the queue, appends its answers, and looks at neither. -/
theorem serve_port {e : PortEvent} {s t : State} (h : serve e s = .next t) :
    t.pending = s.pending ∧ t.responses = s.responses ++ e.answers s ∧
      ∀ p r, serve e (s.withPort p r) = .next (t.withPort p (r ++ e.answers s)) := by
  obtain ⟨a, rfl, ha, rfl⟩ | ⟨a, v, rfl, ha, hc, rfl⟩ | ⟨w, u, rfl, hu, rfl⟩ | ⟨rfl, rfl⟩ | ⟨w, rfl, rfl⟩ :=
    serve_eq_next h
  · refine ⟨rfl, rfl, fun p r => ?_⟩
    rw [serve_read_of_admitted ha]
    rfl
  · refine ⟨by simp, by simp [PortEvent.answers], fun p r => ?_⟩
    rw [serve_write_of_admitted ha, serveWrite_of_ne_cmd hc, writeReg_withPort]
    rfl
  · obtain ⟨hpending, hresponses, -⟩ := issue_samePort hu
    refine ⟨hpending, congrArg (· ++ [Response.completion]) hresponses, fun p r => ?_⟩
    have hissue : issue w (s.withPort p r) = .next (u.withPort p r) := issue_host w hu p r
    have hserve := serve_write_cmd w (s.withPort p r)
    rw [hissue, completeWrite_next] at hserve
    exact hserve
  · exact ⟨rfl, (List.append_nil _).symm, fun p r => by rw [PortEvent.answers, List.append_nil]; rfl⟩
  · exact ⟨rfl, rfl, fun _ _ => rfl⟩

/-- A step takes the oldest waiting event, appends its answers, and looks neither at what waits behind it nor at what has
been answered. -/
theorem step_port {e : PortEvent} {rest : List PortEvent} {s t : State} (hp : s.pending = e :: rest)
    (h : step s = .next t) :
    t.pending = rest ∧ t.responses = s.responses ++ e.answers s ∧
      ∀ q r, step (s.withPort (e :: q) r) = .next (t.withPort q (r ++ e.answers s)) := by
  rw [step_cons hp] at h
  obtain ⟨hpending, hresponses, hserve⟩ := serve_port h
  rw [PortEvent.answers_accept] at hresponses hserve
  exact ⟨hpending, hresponses, hserve⟩

/-- As many steps as events wait, or fewer, serve that many events, append their answers, and look neither at what waits
behind them nor at what has been answered. -/
theorem runSteps_port {k : Nat} {s t : State} (hk : k ≤ s.pending.length) (h : runSteps k s = .next t) :
    ∃ rs, t.pending = s.pending.drop k ∧ t.responses = s.responses ++ rs ∧
      ∀ q r, runSteps k (s.withPort (s.pending.take k ++ q) r) = .next (t.withPort q (r ++ rs)) := by
  induction k generalizing s with
  | zero =>
    cases h
    exact ⟨[], rfl, by simp, fun q r => by simp⟩
  | succ k ih =>
    cases hp : s.pending with
    | nil => simp [hp] at hk
    | cons e rest =>
      obtain ⟨u, hu, hrun⟩ := runSteps_succ_eq_next h
      obtain ⟨hpu, hru, hstep⟩ := step_port hp hu
      have hku : k ≤ u.pending.length := by
        rw [hp, List.length_cons] at hk
        rw [hpu]
        omega
      obtain ⟨rs, hpt, hrt, hrest⟩ := ih hku hrun
      refine ⟨e.answers s ++ rs, by rw [hpt, hpu, List.drop_succ_cons], by rw [hrt, hru, List.append_assoc], fun q r => ?_⟩
      rw [List.take_succ_cons, List.cons_append, runSteps_succ_of_next (hstep _ r), ← hpu, hrest, List.append_assoc]

/-! ### Single events (R51, R70, R184, R210, R212) -/

/-- Settles O6: the port accepts the write, issues its word, and answers it when the command has ended. -/
theorem stepRunsDecodedCommand : Obligations.StepRunsDecodedCommand := by
  intro s w rest i hp hd
  rw [step_write_cmd hp, issue_of_decode_ok hd]
  rfl

/-- Settles O7: issuing such a word is recording the error. -/
theorem stepRecordsIllegalWord : Obligations.StepRecordsIllegalWord := by
  intro s w rest e hp hd
  rw [step_write_cmd hp, issue_of_decode_error hd, raiseError_illegalCommand]
  rfl

theorem guardAccess_outside {a : Access} (h : 0x100 ≤ a.offset) (o : Host.Outcome State Fault Refusal) :
    guardAccess a o = .fault .outsideWindow := if_pos h

theorem guardAccess_inside_unadmitted {a : Access} (h : a.offset < 0x100) (hbad : a.bytes ≠ 4 ∨ a.offset % 4 ≠ 0)
    (o : Host.Outcome State Fault Refusal) : guardAccess a o = .refused .busNarrow := by
  have hin : ¬ Config.windowSize ≤ a.offset := Nat.not_le.2 h
  have hnot : ¬ (a.bytes = 4 ∧ a.offset % 4 = 0) := not_and_or.2 hbad
  rw [guardAccess, if_neg hin, if_neg hnot]

/-- Settles O11: reads and writes stop in the guard, whatever their effect would have been. -/
theorem unadmittedAccessStopsByName : Obligations.UnadmittedAccessStopsByName := by
  refine ⟨fun s a v rest h => ?_, fun s below bytes rest h => step_cons h⟩
  obtain h | h := h <;> rw [step_cons h]
  · exact ⟨fun hout => guardAccess_outside hout _, fun hin hbad => guardAccess_inside_unadmitted hin hbad _⟩
  · exact ⟨fun hout => guardAccess_outside hout _, fun hin hbad => guardAccess_inside_unadmitted hin hbad _⟩

theorem step_of_idle {s : State} (h : s.pending = []) : step s = .next s := by
  rw [step, h]

/-- Settles O13: the branch of `step` for an empty queue. -/
theorem idleBlockDoesNothing : Obligations.IdleBlockDoesNothing := fun _ => step_of_idle

/-- Settles O14: serving a reset is `resetBlock` of the state that accepted it. -/
theorem resetDiscardsAllBlockState : Obligations.ResetDiscardsAllBlockState := fun _ _ => step_cons

/-- Settles O15: the answer is the free value of the draw. -/
theorem resetDuringCommandAbandonsIt : Obligations.ResetDuringCommandAbandonsIt := fun s _ _ h =>
  ⟨Config.cutShortResponse s.draws, step_cons h⟩

/-! ### Admitted events never stop the machine (R51, R216) -/

theorem serve_completes {e : PortEvent} (h : e.admitted = true) (s : State) : ∃ t, serve e s = .next t := by
  cases e with
  | read a => exact ⟨_, serve_read_of_admitted h s⟩
  | write a v =>
    rw [serve_write_of_admitted h]
    exact serveWrite_completes a.offset v s
  | straddle below bytes => cases h
  | reset => exact ⟨_, rfl⟩
  | resetDuring w => exact ⟨_, rfl⟩

theorem step_completes {s : State} (h : s.portOk) : ∃ t, step s = .next t ∧ t.portOk := by
  cases hp : s.pending with
  | nil => exact ⟨s, step_of_idle hp, h⟩
  | cons e rest =>
    rw [State.portOk, hp] at h
    obtain ⟨t, ht⟩ := serve_completes (h e List.mem_cons_self) (s.accept rest)
    have hstep : step s = .next t := (step_cons hp).trans ht
    obtain ⟨hrest, -⟩ := step_port hp hstep
    refine ⟨t, hstep, fun e' he' => h e' (List.mem_cons_of_mem e ?_)⟩
    exact hrest ▸ he'

theorem runSteps_completes (k : Nat) {s : State} (h : s.portOk) : ∃ t, runSteps k s = .next t ∧ t.portOk := by
  induction k generalizing s with
  | zero => exact ⟨s, rfl, h⟩
  | succ k ih =>
    obtain ⟨u, hu, huOk⟩ := step_completes h
    rw [runSteps_succ_of_next hu]
    exact ih huOk

/-- Settles O53: one step of such a state completes and leaves such a state, so any number does. -/
theorem admittedTransactionsNeverStop : Obligations.AdmittedTransactionsNeverStop := fun k _ h => runSteps_completes k h

/-! ### Programs one after another (R58, R214, R218) -/

theorem runWaiting_pending {s u : State} (h : runWaiting s = .next u) : u.pending = [] := by
  obtain ⟨rs, hp, -⟩ := runSteps_port le_rfl h
  rw [hp, List.drop_length]

theorem runProgram_eq_next {p : List PortEvent} {s t : State} :
    runProgram p s = .next t ↔ ∃ u, runWaiting s = .next u ∧ runSteps p.length (u.load p) = .next t := andThen_eq_next

/-- A program that waits is served alike with or without another one behind it. -/
theorem runSteps_load_iff {p : List PortEvent} {s t : State} (hp : s.pending = p) (q : List PortEvent) :
    runSteps p.length (s.load q) = .next t ↔ ∃ m, m.pending = [] ∧ runSteps p.length s = .next m ∧ t = m.load q := by
  subst hp
  constructor
  · intro h
    obtain ⟨rs, hpt, hrt, hrun⟩ := runSteps_port (by simp) h
    rw [State.load_pending, List.drop_left] at hpt
    have hback := hrun [] s.responses
    rw [State.load_pending, List.take_left, List.append_nil] at hback
    refine ⟨t.withPort [] t.responses, rfl, hrt ▸ hback, ?_⟩
    rw [State.load_eq_withPort, State.withPort_pending, List.nil_append, ← hpt]
    rfl
  · rintro ⟨m, hm, hrun, rfl⟩
    obtain ⟨rs, -, hrm, hload⟩ := runSteps_port le_rfl hrun
    have hq := hload q s.responses
    rw [List.take_length, ← hrm] at hq
    rwa [State.load_eq_withPort, State.load_eq_withPort, hm]

/-- With nothing else waiting, two programs handed over together run as one after the other. -/
theorem runSteps_load_append {u t : State} (hu : u.pending = []) (p q : List PortEvent) :
    runSteps (p ++ q).length (u.load (p ++ q)) = .next t ↔
      ∃ m, m.pending = [] ∧ runSteps p.length (u.load p) = .next m ∧ runSteps q.length (m.load q) = .next t := by
  have hwaits : (u.load p).pending = p := by rw [State.load_pending, hu, List.nil_append]
  have hload : u.load (p ++ q) = (u.load p).load q := by
    simp only [State.load_eq_withPort, State.withPort_withPort, State.withPort_pending, State.withPort_responses,
      List.append_assoc]
  rw [List.length_append, runSteps_add, andThen_eq_next, hload]
  simp only [runSteps_load_iff hwaits]
  constructor
  · rintro ⟨_, ⟨m, hm, hrun, rfl⟩, hq⟩
    exact ⟨m, hm, hrun, hq⟩
  · rintro ⟨m, hm, hrun, hq⟩
    exact ⟨_, ⟨m, hm, hrun, rfl⟩, hq⟩

/-- A program alone at the port leaves nothing waiting, appends its answers to the earlier ones, and does not look at those. -/
theorem runSteps_loaded {p : List PortEvent} {u t : State} (hu : u.pending = [])
    (h : runSteps p.length (u.load p) = .next t) :
    t.pending = [] ∧ ∃ rs, t.responses = u.responses ++ rs ∧
      ∀ r, runSteps p.length ((u.withPort [] r).load p) = .next (t.withPort [] (r ++ rs)) := by
  have hwaits : (u.load p).pending = p := by rw [State.load_pending, hu, List.nil_append]
  obtain ⟨rs, hpt, hrt, hrun⟩ := runSteps_port (by simp) h
  rw [hwaits, List.drop_length] at hpt
  refine ⟨hpt, rs, hrt, fun r => ?_⟩
  have hr := hrun [] r
  rwa [hwaits, List.take_length, List.append_nil] at hr

theorem runProgram_append {p q : List PortEvent} {s t : State} :
    runProgram (p ++ q) s = .next t ↔ ∃ m, runProgram p s = .next m ∧ runProgram q m = .next t := by
  constructor
  · intro h
    obtain ⟨u, hu, hrun⟩ := runProgram_eq_next.1 h
    obtain ⟨m, hm, hp, hq⟩ := (runSteps_load_append (runWaiting_pending hu) p q).1 hrun
    exact ⟨m, runProgram_eq_next.2 ⟨u, hu, hp⟩, (runProgram_of_nil hm q).trans hq⟩
  · rintro ⟨m, hp, hq⟩
    obtain ⟨u, hu, hp⟩ := runProgram_eq_next.1 hp
    have hpu := runWaiting_pending hu
    obtain ⟨hm, -⟩ := runSteps_loaded hpu hp
    rw [runProgram_of_nil hm] at hq
    exact runProgram_eq_next.2 ⟨u, hu, (runSteps_load_append hpu p q).2 ⟨m, hm, hp, hq⟩⟩

/-! ### What programs observe (R218) -/

/-- A program's observation, with the answers it was given named. -/
theorem observe_eq_next_iff {p : List PortEvent} {s : State} {o : Observation} :
    observe p s = .next o ↔
      ∃ u rs, runWaiting s = .next u ∧ runSteps p.length (u.load p) = .next o.final ∧
        o.final.responses = u.responses ++ rs ∧ o.values = observed rs := by
  rw [observe_eq_next]
  constructor
  · rintro ⟨u, hu, hrun, hv⟩
    obtain ⟨-, rs, hr, -⟩ := runSteps_loaded (runWaiting_pending hu) hrun
    rw [hr, List.drop_left] at hv
    exact ⟨u, rs, hu, hrun, hr, hv⟩
  · rintro ⟨u, rs, hu, hrun, hr, hv⟩
    exact ⟨u, hu, hrun, by rw [hr, List.drop_left, hv]⟩

theorem observe_append {p q : List PortEvent} {s : State} {o : Observation} :
    observe (p ++ q) s = .next o ↔
      ∃ a b, observe p s = .next a ∧ observe q a.final = .next b ∧ o = ⟨a.values ++ b.values, b.final⟩ := by
  constructor
  · intro h
    obtain ⟨u, rs, hu, hrun, hr, hv⟩ := observe_eq_next_iff.1 h
    have hpu := runWaiting_pending hu
    obtain ⟨m, hm, hp, hq⟩ := (runSteps_load_append hpu p q).1 hrun
    obtain ⟨-, rs₁, hr₁, -⟩ := runSteps_loaded hpu hp
    obtain ⟨-, rs₂, hr₂, -⟩ := runSteps_loaded hm hq
    have hrs : rs = rs₁ ++ rs₂ := by
      rw [hr₂, hr₁, List.append_assoc] at hr
      exact (List.append_cancel_left hr).symm
    refine ⟨⟨observed rs₁, m⟩, ⟨observed rs₂, o.final⟩, observe_eq_next_iff.2 ⟨u, rs₁, hu, hp, hr₁, rfl⟩,
      observe_eq_next_iff.2 ⟨m, rs₂, runWaiting_of_nil hm, hq, hr₂, rfl⟩, ?_⟩
    rw [← observed_append, ← hrs, ← hv]
  · rintro ⟨a, b, ha, hb, rfl⟩
    obtain ⟨u, rs₁, hu, hp, hr₁, hv₁⟩ := observe_eq_next_iff.1 ha
    obtain ⟨m, rs₂, hm, hq, hr₂, hv₂⟩ := observe_eq_next_iff.1 hb
    have hpu := runWaiting_pending hu
    obtain ⟨hpa, -⟩ := runSteps_loaded hpu hp
    rw [runWaiting_of_nil hpa] at hm
    cases hm
    refine observe_eq_next_iff.2 ⟨u, rs₁ ++ rs₂, hu, (runSteps_load_append hpu p q).2 ⟨_, hpa, hp, hq⟩, ?_, ?_⟩
    · rw [hr₂, hr₁, List.append_assoc]
    · rw [observed_append, hv₁, hv₂]

/-- Settles O54: with nothing else waiting, two programs handed over together run as one after the other, and the answers
split with them. -/
theorem transactionsComposeInProgramOrder : Obligations.TransactionsComposeInProgramOrder := fun _ _ _ =>
  ⟨fun _ => runProgram_append, fun _ => observe_append⟩

/-! ### A host program observes its own reads (R218, R219) -/

theorem admitted_of_isTransaction {e : PortEvent} (h : e.isTransaction = true) : e.admitted = true := by
  cases e with
  | read a => exact h
  | write a v => exact h
  | straddle below bytes => cases h
  | reset => cases h
  | resetDuring w => cases h

/-- Each transaction is answered once, and a value is observed exactly at a read. -/
theorem answers_of_isTransaction {e : PortEvent} (h : e.isTransaction = true) (s : State) :
    (e.answers s).length = 1 ∧ (observed (e.answers s)).length = if e.isRead then 1 else 0 := by
  cases e with
  | read a => exact ⟨rfl, rfl⟩
  | write a v => exact ⟨rfl, rfl⟩
  | straddle below bytes => cases h
  | reset => cases h
  | resetDuring w => cases h

theorem runSteps_hostProgram_answers {p : List PortEvent} {s t : State} (hp : isHostProgram p = true)
    (hs : s.pending = p) (h : runSteps p.length s = .next t) :
    t.responses.length = s.responses.length + p.length ∧
      (observed t.responses).length = (observed s.responses).length + p.countP PortEvent.isRead := by
  induction p generalizing s with
  | nil =>
    cases h
    exact ⟨rfl, rfl⟩
  | cons e p ih =>
    rw [isHostProgram, List.all_cons, Bool.and_eq_true] at hp
    obtain ⟨he, hp⟩ := hp
    obtain ⟨u, hu, hrun⟩ := runSteps_succ_eq_next h
    obtain ⟨hpu, hru, -⟩ := step_port hs hu
    obtain ⟨hlen, hobs⟩ := ih hp hpu hrun
    obtain ⟨hone, hval⟩ := answers_of_isTransaction he s
    rw [hru, List.length_append, hone] at hlen
    rw [hru, observed_append, List.length_append, hval] at hobs
    rw [hlen, hobs, List.length_cons, List.countP_cons]
    exact ⟨by omega, by omega⟩

/-- Settles O60: what waits completes, then the program does; its answers are those appended meanwhile, and the run does not
look at earlier ones. -/
theorem hostProgramEndsAndObservesItsOwnReads : Obligations.HostProgramEndsAndObservesItsOwnReads := by
  intro p s hp hs
  obtain ⟨u, hu, -⟩ := runSteps_completes s.pending.length hs
  have hpu : u.pending = [] := runWaiting_pending hu
  have hwaits : (u.load p).pending = p := by rw [State.load_pending, hpu, List.nil_append]
  have hadmitted : (u.load p).portOk := by
    rw [State.portOk, hwaits]
    exact fun e he => admitted_of_isTransaction (List.all_eq_true.1 hp e he)
  obtain ⟨t, ht, -⟩ := runSteps_completes p.length hadmitted
  obtain ⟨hpt, rs, hrt, hagain⟩ := runSteps_loaded hpu ht
  obtain ⟨hlen, hobs⟩ := runSteps_hostProgram_answers hp hwaits ht
  rw [State.load_responses, hrt] at hlen hobs
  rw [List.length_append] at hlen
  rw [observed_append, List.length_append] at hobs
  refine ⟨u, ⟨observed rs, t⟩, hu, hpu, observe_eq_next_iff.2 ⟨u, rs, hu, ht, hrt, rfl⟩,
    runProgram_eq_next.2 ⟨u, hu, ht⟩, hpt, ⟨rs, hrt, Nat.add_left_cancel hlen, rfl⟩, Nat.add_left_cancel hobs, fun r => ?_⟩
  obtain ⟨rs₀, -, -, hfirst⟩ := runSteps_port le_rfl hu
  have hwaiting : runWaiting { s with responses := r } = .next (u.withPort [] (r ++ rs₀)) := by
    have h := hfirst [] r
    rwa [List.take_length, List.append_nil] at h
  exact ⟨_, observe_eq_next_iff.2 ⟨_, rs, hwaiting, hagain _, rfl, rfl⟩⟩

end Sys2Proof.Machine
end

section
/-! PROOF. The commands, one by one (41_config_tables.md to 44_keys_and_control.md): what each does where its operand passes and
where it does not. The first part says once how each operand check decides a command's end. -/

namespace Sys2Proof.Machine

/-! ### How an operand check ends a command (R100, R160, R186) -/

section
variable {s : State} (w : Word)

theorem endCommand_blk_of_fits (h : s.strict = false ∨ s.din.extractLsb' 16 16 = 0) (f : Block → State) :
    endCommand w s ((blk s).map f) = .next (f (s.din.extractLsb' 0 16)) := by
  rw [blk_of_fits h]
  rfl

theorem endCommand_ent_of_nibble (h : s.din.extractLsb' 4 28 = 0) (f : Nibble → State) :
    endCommand w s ((ent s).map f) = .next (f (s.din.extractLsb' 0 4)) := by
  rw [ent_of_nibble h]
  rfl

theorem endCommand_ent_of_wide (h : s.din.extractLsb' 4 28 ≠ 0) (f : Nibble → State) :
    endCommand w s ((ent s).map f) = .next { s with eMap := true, lasterr := 1, errcmd := w } := by
  rw [ent_of_wide h, Except.map, endCommand_error, raiseError_invalidMapping]

theorem endCommand_configured (h : s.cfgValid = true) (f : Unit → State) :
    endCommand w s ((configured s).map f) = .next (f ()) := by
  rw [configured_of_valid h]
  rfl

end

/-! ### LDST, WRRK and KMIXD (R128, R161, R163) -/

/-- Settles O22: the two answers of the block-size check. -/
theorem ldstLoadsState : Obligations.LdstLoadsState := fun s =>
  ⟨fun hfits => endCommand_blk_of_fits _ hfits s.setState,
    fun hs hwide => endCommand_blk_of_strict_wide hs hwide _ s.setState⟩

/-- Settles O23: the key number passes its check, and then the block-size check decides. -/
theorem wrrkWritesOneRoundKey : Obligations.WrrkWritesOneRoundKey := by
  intro s i hi
  rw [exec_wrrk, keyIndex_of_lt hi]
  exact ⟨fun hfits => endCommand_blk_of_fits _ hfits _, fun hs hwide => endCommand_blk_of_strict_wide hs hwide _ _⟩

/-- Settles O31: the two answers of the block-size check. -/
theorem kmixdMixesOperand : Obligations.KmixdMixesOperand := fun s =>
  ⟨fun hfits => endCommand_blk_of_fits _ hfits fun k => s.setState (keyMix s.state k),
    fun hs hwide => endCommand_blk_of_strict_wide hs hwide _ fun k => s.setState (keyMix s.state k)⟩

/-! ### WRS, WRSI and WRP (R101 to R103) -/

/-- Settles O24: the entry check passes, and each command writes its own table. -/
theorem stagingWriteStoresOneEntry : Obligations.StagingWriteStoresOneEntry := fun s n hfits =>
  ⟨endCommand_ent_of_nibble _ hfits (s.setSStg n), endCommand_ent_of_nibble _ hfits (s.setSiStg n),
    endCommand_ent_of_nibble _ hfits (s.setPStg n)⟩

/-- Settles O25: the entry check fails, and each command records its own word. -/
theorem stagingWriteOutOfRangeRaisesInvalidMapping : Obligations.StagingWriteOutOfRangeRaisesInvalidMapping :=
  fun s n hwide =>
    ⟨endCommand_ent_of_wide _ hwide (s.setSStg n), endCommand_ent_of_wide _ hwide (s.setSiStg n),
      endCommand_ent_of_wide _ hwide (s.setPStg n)⟩

/-! ### The commands that read an active table (R123 to R126, R141, R143) -/

section
variable (s : State) (hv : s.cfgValid = true)
include hv

theorem exec_sub_of_configured : exec .sub s = .next (s.setState (substitute s.state s.sAct)) :=
  endCommand_configured _ hv _

theorem exec_subi_of_configured : exec .subi s = .next (s.setState (substitute s.state s.siAct)) :=
  endCommand_configured _ hv _

theorem exec_perm_of_configured : exec .perm s = .next (s.setState (permute s.state s.pAct)) :=
  endCommand_configured _ hv _

theorem exec_permi_of_configured : exec .permi s = .next (s.setState (permute s.state s.piAct)) :=
  endCommand_configured _ hv _

end

/-- Settles O29: the check of `CFG_VALID` passes, and each command uses its own table. -/
theorem tablePrimitivesTransformState : Obligations.TablePrimitivesTransformState := fun s hv =>
  ⟨exec_sub_of_configured s hv, exec_subi_of_configured s hv, exec_perm_of_configured s hv,
    exec_permi_of_configured s hv⟩

/-- Settles O34: DEC in a configured block sets `STATE` to `Decrypt(STATE)`, which is the rounds of R142. -/
theorem decRunsInverseRounds : Obligations.DecRunsInverseRounds := by
  intro s hv
  rw [exec_dec_of_configured s hv, decrypt_eq_rounds]
  rfl

theorem exec_commit_of_valid {s : State} (h : valid s.sStg s.siStg s.pStg = true) :
    exec .commit s = .next s.activate := by
  rw [exec_commit, if_pos h, endCommand_ok]

/-- Settles O27: the state after COMMIT is configured, and its active tables are the staging tables. -/
theorem commitActivatesValidTables : Obligations.CommitActivatesValidTables := by
  intro s hvalid
  have hv : s.activate.cfgValid = true := s.activate_cfgValid
  exact ⟨s.activate, exec_commit_of_valid hvalid, rfl, exec_sub_of_configured _ hv, exec_subi_of_configured _ hv,
    exec_perm_of_configured _ hv, exec_permi_of_configured _ hv, exec_enc_of_configured _ hv,
    exec_dec_of_configured _ hv⟩

/-! ### Key numbers (R72, R75, R127) -/

theorem exec_kmix_of_lt (s : State) {i : Nibble} (h : i.toNat < 5) :
    exec (.kmix i) s = .next (s.setState (keyMix s.state s.rk[i.toNat])) := by
  rw [exec_kmix, keyIndex_of_lt h]
  rfl

/-- Settles O30: KMIX checks its key number and nothing else. -/
theorem kmixMixesRoundKey : Obligations.KmixMixesRoundKey := fun s _ => exec_kmix_of_lt s

/-- The word of a command with a key number above 4 is of an illegal class (R75). -/
theorem issue_encode_of_keyIndex_ge {i : Instr} (hopc : i.opcode = 0x02 ∨ i.opcode = 0x14) (hidx : 5 ≤ i.index.toNat)
    (s : State) : issue (encode i) s = .next { s with eCmd := true, lasterr := 3, errcmd := encode i } := by
  have hbad : DecodeError.keyIndexOutOfRange.describes (encode i) := by
    simpa [DecodeError.describes] using And.intro hopc hidx
  obtain ⟨e, he⟩ := decode_error_of_describes hbad
  rw [issue_of_decode_error he, raiseError_illegalCommand]

theorem exec_wrrk_of_ge (s : State) {i : Nibble} (h : 5 ≤ i.toNat) :
    exec (.wrrk i) s = .next { s with eCmd := true, lasterr := 3, errcmd := encode (.wrrk i) } := by
  rw [exec_wrrk, keyIndex_of_ge h, Except.bind, endCommand_error, raiseError_illegalCommand]

theorem exec_kmix_of_ge (s : State) {i : Nibble} (h : 5 ≤ i.toNat) :
    exec (.kmix i) s = .next { s with eCmd := true, lasterr := 3, errcmd := encode (.kmix i) } := by
  rw [exec_kmix, keyIndex_of_ge h, Except.map, endCommand_error, raiseError_illegalCommand]

/-- Settles O32: the decoder refuses the word, and the command's own check of its index answers the same. -/
theorem keyNumberAboveFourIsIllegal : Obligations.KeyNumberAboveFourIsIllegal := by
  intro s i hi
  have hwrrk := exec_wrrk_of_ge s hi
  have hkmix := exec_kmix_of_ge s hi
  have hwrrkWord := issue_encode_of_keyIndex_ge (i := .wrrk i) (.inl rfl) hi s
  have hkmixWord := issue_encode_of_keyIndex_ge (i := .kmix i) (.inr rfl) hi s
  exact ⟨hwrrk, hkmix, hwrrkWord.trans hwrrk.symm, hkmixWord.trans hkmix.symm⟩

end Sys2Proof.Machine
end

section
/-! PROOF. Chains of commands (43_cipher.md, 60_exceptions.md section 3): ENC and DEC undo each other on the machine (R144), and
the primitives stepped by hand are ENC and DEC (R140, R142, R214). -/

namespace Sys2Proof.Machine

/-! Each lemma speaks of a configured block `s` after `STATE` has become `x`: no command of these chains writes anything else. -/

section
variable {s : State} (hv : s.cfgValid = true) {i : Nibble} (hi : i.toNat < 5) (x : Block) (is : List Instr)

theorem execAll_setState_nil : execAll [] (s.setState x) = .next (s.setState x) := rfl

include hi in
theorem execAll_setState_kmix :
    execAll (.kmix i :: is) (s.setState x) = execAll is (s.setState (keyMix x s.rk[i.toNat])) :=
  execAll_cons_of_next (exec_kmix_of_lt (s.setState x) hi) is

include hv

theorem execAll_setState_sub : execAll (.sub :: is) (s.setState x) = execAll is (s.setState (substitute x s.sAct)) :=
  execAll_cons_of_next (exec_sub_of_configured (s.setState x) hv) is

theorem execAll_setState_subi : execAll (.subi :: is) (s.setState x) = execAll is (s.setState (substitute x s.siAct)) :=
  execAll_cons_of_next (exec_subi_of_configured (s.setState x) hv) is

theorem execAll_setState_perm : execAll (.perm :: is) (s.setState x) = execAll is (s.setState (permute x s.pAct)) :=
  execAll_cons_of_next (exec_perm_of_configured (s.setState x) hv) is

theorem execAll_setState_permi : execAll (.permi :: is) (s.setState x) = execAll is (s.setState (permute x s.piAct)) :=
  execAll_cons_of_next (exec_permi_of_configured (s.setState x) hv) is

theorem execAll_setState_enc :
    execAll (.enc :: is) (s.setState x) = execAll is (s.setState (encrypt s.rk s.sAct s.pAct x)) :=
  execAll_cons_of_next (exec_enc_of_configured (s.setState x) hv) is

theorem execAll_setState_dec :
    execAll (.dec :: is) (s.setState x) = execAll is (s.setState (decrypt s.rk s.siAct s.piAct x)) :=
  execAll_cons_of_next (exec_dec_of_configured (s.setState x) hv) is

include hi

/-- KMIX, SUB and PERM are one round of `Encrypt`. -/
theorem execAll_encryptRound : execAll (.kmix i :: .sub :: .perm :: is) (s.setState x) =
    execAll is (s.setState (encryptRound s.sAct s.pAct x s.rk[i.toNat])) := by
  rw [execAll_setState_kmix hi, execAll_setState_sub hv, execAll_setState_perm hv, encryptRound]

/-- KMIX, PERMI and SUBI are one round of `Decrypt`. -/
theorem execAll_decryptRound : execAll (.kmix i :: .permi :: .subi :: is) (s.setState x) =
    execAll is (s.setState (decryptRound s.siAct s.piAct x s.rk[i.toNat])) := by
  rw [execAll_setState_kmix hi, execAll_setState_permi hv, execAll_setState_subi hv, decryptRound]

end

theorem State.setState_self (s : State) : s.setState s.state = s := rfl

/-- Settles O46: the first command leaves the tables and keys, so the second undoes it on `STATE`, the one register that either
writes. -/
theorem decAfterEncRestoresTheMachine : Obligations.DecAfterEncRestoresTheMachine := by
  intro s hs hv
  obtain ⟨hdecenc, hencdec⟩ := decryptUndoesEncrypt s hs s.rk s.state
  constructor
  · calc execAll [.enc, .dec] (s.setState s.state)
        = .next (s.setState (decrypt s.rk s.siAct s.piAct (encrypt s.rk s.sAct s.pAct s.state))) := by
          rw [execAll_setState_enc hv, execAll_setState_dec hv, execAll_setState_nil]
      _ = .next s := by rw [hdecenc, State.setState_self]
  · calc execAll [.dec, .enc] (s.setState s.state)
        = .next (s.setState (encrypt s.rk s.sAct s.pAct (decrypt s.rk s.siAct s.piAct s.state))) := by
          rw [execAll_setState_dec hv, execAll_setState_enc hv, execAll_setState_nil]
      _ = .next s := by rw [hencdec, State.setState_self]

/-- Settles O47: three rounds with the permutation and the last one without, in the order of R140, and the inverse of the last
round and three inverse rounds in the order of R142. -/
theorem steppedRoundsEqualCipherCommands : Obligations.SteppedRoundsEqualCipherCommands := by
  intro s hv
  rw [exec_enc_of_configured s hv, exec_dec_of_configured s hv, encrypt_eq_rounds, decrypt_eq_rounds]
  constructor
  · change execAll _ (s.setState s.state) = _
    rw [execAll_encryptRound hv (by decide), execAll_encryptRound hv (by decide), execAll_encryptRound hv (by decide),
      execAll_setState_kmix (by decide), execAll_setState_sub hv, execAll_setState_kmix (by decide), execAll_setState_nil]
    rfl
  · change execAll _ (s.setState s.state) = _
    rw [execAll_setState_kmix (by decide), execAll_setState_subi hv, execAll_decryptRound hv (by decide),
      execAll_decryptRound hv (by decide), execAll_decryptRound hv (by decide), execAll_setState_kmix (by decide),
      execAll_setState_nil]
    rfl

end Sys2Proof.Machine
end

section
/-! PROOF. What a command writes and reads (10_state.md, 20_memory.md section 6): which command writes which register and table,
and that the staging tables are read by COMMIT alone. -/

namespace Sys2Proof.Machine

/-! ### Who writes what (R21 to R30) -/

/-- The commands that write `STATE`: LDST and those of the datapath. -/
def writesState (i : Instr) : Prop :=
  (∃ k, i = .kmix k) ∨ i ∈ [Instr.ldst, .sub, .subi, .perm, .permi, .kmixd, .enc, .dec]

theorem exec_state {i : Instr} {s t : State} (h : exec i s = .next t) : t.state = s.state ∨ writesState i := by
  cases i
  case ldst | sub | subi | perm | permi | kmixd | enc | dec => exact .inr (.inr (by decide))
  case kmix k => exact .inr (.inl ⟨k, rfl⟩)
  case nop | clrerr =>
    cases h
    exact .inl rfl
  case commit => obtain ⟨-, rfl⟩ | ⟨-, rfl⟩ := exec_commit_eq_next h <;> exact .inl rfl
  case wrs | wrsi | wrp => obtain ⟨v, -, rfl⟩ | ⟨e, -, rfl⟩ := endCommand_map_eq_next h <;> exact .inl rfl
  case wrrk n =>
    rw [exec_wrrk] at h
    cases hk : keyIndex n with
    | error e =>
      rw [hk] at h
      cases h
      exact .inl rfl
    | ok k =>
      rw [hk] at h
      obtain ⟨v, -, rfl⟩ | ⟨e, -, rfl⟩ := endCommand_map_eq_next h <;> exact .inl rfl

/-- Settles O50: the forms that a command's next state can have, each against the registers it leaves. -/
theorem eachRegisterHasItsWriters : Obligations.EachRegisterHasItsWriters := by
  intro i s t h
  have hstate := exec_state h
  by_cases hi : i = .commit
  · subst hi
    obtain ⟨hvalid, rfl⟩ | ⟨-, rfl⟩ := exec_commit_eq_next h
    · exact ⟨rfl, rfl, rfl, .inl rfl, .inl rfl, .inl rfl, .inl rfl, .inr ⟨rfl, hvalid⟩, hstate⟩
    · exact ⟨rfl, rfl, rfl, .inl rfl, .inl rfl, .inl rfl, .inl rfl, .inl ⟨rfl, rfl, rfl, rfl⟩, hstate⟩
  · obtain ⟨e, rfl⟩ | ⟨-, rfl⟩ | ⟨-, rfl⟩ | ⟨v, rfl⟩ | ⟨n, k, v, hn, rfl⟩ | ⟨n, v, hn, rfl⟩ | ⟨n, v, hn, rfl⟩ |
      ⟨n, v, hn, rfl⟩ := exec_eq_next_of_ne_commit hi h
    · exact ⟨rfl, rfl, rfl, .inl rfl, .inl rfl, .inl rfl, .inl rfl, .inl ⟨rfl, rfl, rfl, rfl⟩, hstate⟩
    · exact ⟨rfl, rfl, rfl, .inl rfl, .inl rfl, .inl rfl, .inl rfl, .inl ⟨rfl, rfl, rfl, rfl⟩, hstate⟩
    · exact ⟨rfl, rfl, rfl, .inl rfl, .inl rfl, .inl rfl, .inl rfl, .inl ⟨rfl, rfl, rfl, rfl⟩, hstate⟩
    · exact ⟨rfl, rfl, rfl, .inl rfl, .inl rfl, .inl rfl, .inl rfl, .inl ⟨rfl, rfl, rfl, rfl⟩, hstate⟩
    · exact ⟨rfl, rfl, rfl, .inr ⟨n, hn⟩, .inl rfl, .inl rfl, .inl rfl, .inl ⟨rfl, rfl, rfl, rfl⟩, hstate⟩
    · exact ⟨rfl, rfl, rfl, .inl rfl, .inr ⟨n, hn⟩, .inl rfl, .inl rfl, .inl ⟨rfl, rfl, rfl, rfl⟩, hstate⟩
    · exact ⟨rfl, rfl, rfl, .inl rfl, .inl rfl, .inr ⟨n, hn⟩, .inl rfl, .inl ⟨rfl, rfl, rfl, rfl⟩, hstate⟩
    · exact ⟨rfl, rfl, rfl, .inl rfl, .inl rfl, .inl rfl, .inr ⟨n, hn⟩, .inl ⟨rfl, rfl, rfl, rfl⟩, hstate⟩

/-! ### Who reads the staging tables (20_memory.md section 6) -/

/-- The state with other staging tables. -/
def State.withStaging (s : State) (a b c : Table) : State := { s with sStg := a, siStg := b, pStg := c }

section
variable (s : State) (a b c : Table)

theorem blk_withStaging : blk (s.withStaging a b c) = blk s := rfl

/-- A command whose check and change both pass over the staging tables does the same with others there. -/
theorem endCommand_withStaging {α : Type} (w : Word) (x : Except ErrorKind α) {f g : α → State}
    (hg : ∀ v, g v = (f v).withStaging a b c) :
    ∃ t, endCommand w s (x.map f) = .next t ∧
      endCommand w (s.withStaging a b c) (x.map g) = .next (t.withStaging a b c) := by
  cases x with
  | ok v => exact ⟨f v, rfl, congrArg Host.Outcome.next (hg v)⟩
  | error e => exact ⟨s.raiseError e w, rfl, rfl⟩

theorem exec_withStaging {i : Instr} (hcommit : i ≠ .commit) (hs : ∀ n, i ≠ .wrs n) (hsi : ∀ n, i ≠ .wrsi n)
    (hp : ∀ n, i ≠ .wrp n) :
    ∃ t, exec i s = .next t ∧ exec i (s.withStaging a b c) = .next (t.withStaging a b c) := by
  cases i
  case commit => exact absurd rfl hcommit
  case wrs n => exact absurd rfl (hs n)
  case wrsi n => exact absurd rfl (hsi n)
  case wrp n => exact absurd rfl (hp n)
  case nop => exact ⟨s, rfl, rfl⟩
  case clrerr => exact ⟨s.clearErrors, rfl, rfl⟩
  case ldst | kmixd | sub | subi | perm | permi | enc | dec | kmix =>
    exact endCommand_withStaging s a b c _ _ fun _ => rfl
  case wrrk n =>
    rw [exec_wrrk, exec_wrrk, blk_withStaging]
    cases keyIndex n with
    | error e => exact ⟨s.raiseError e _, rfl, rfl⟩
    | ok k => exact endCommand_withStaging s a b c _ _ fun _ => rfl

end

/-- Settles O51: of the remaining commands, none checks or uses a staging table. -/
theorem stagingTablesInvisibleUntilCommit : Obligations.StagingTablesInvisibleUntilCommit :=
  fun _ s a b c hcommit hs hsi hp => exec_withStaging s a b c hcommit hs hsi hp

end Sys2Proof.Machine
end

section
/-! PROOF. Permutations bit by bit (42_round_primitives.md section 1) and the digits of the key material (44_keys_and_control.md
section 2). -/

namespace Sys2Proof.Machine

/-! ### Permutations bit by bit (R121) -/

/-- Settles O41: the loop of `permute` sets exactly these bits. -/
theorem permuteMovesEachSetBit : Obligations.PermuteMovesEachSetBit := getLsbD_permute_iff

theorem getLsbD_permute_lookup {q : Table} (hq : ∀ v, ∃! x, lookup q x = v) (s : Block) (i : Nibble) :
    (permute s q).getLsbD (lookup q i).toNat = s.getLsbD i.toNat := by
  rw [Bool.eq_iff_iff, getLsbD_permute_iff]
  constructor
  · rintro ⟨k, hk, hki⟩
    exact lookup_injective hq hki ▸ hk
  · intro hi
    exact ⟨i, hi, rfl⟩

/-- A bijective table lists every index once. -/
theorem map_lookup_perm {q : Table} (hq : ∀ v, ∃! x, lookup q x = v) : (nibbles.map (lookup q)).Perm nibbles := by
  refine (List.perm_ext_iff_of_nodup (nibbles_nodup.map (lookup_injective hq)) nibbles_nodup).2 fun v => ?_
  obtain ⟨x, hx, -⟩ := hq v
  exact iff_of_true (List.mem_map.2 ⟨x, mem_nibbles x, hx⟩) (mem_nibbles v)

/-- Settles O42: each bit moves to its own place, and counting the result's bits in the table's order counts the block's. -/
theorem permuteByBijectionKeepsEveryBit : Obligations.PermuteByBijectionKeepsEveryBit := by
  intro s q hq
  refine ⟨getLsbD_permute_lookup hq s, ?_⟩
  calc nibbles.countP (fun i => (permute s q).getLsbD i.toNat)
      = (nibbles.map (lookup q)).countP (fun i => (permute s q).getLsbD i.toNat) := ((map_lookup_perm hq).countP_eq _).symm
    _ = nibbles.countP (fun i => (permute s q).getLsbD (lookup q i).toNat) := List.countP_map
    _ = nibbles.countP (fun i => s.getLsbD i.toNat) := by simp only [getLsbD_permute_lookup hq]

/-! ### The digits of the key material (R162) -/

/-- The number that digits denote with `m` in front of them, cut to 80 bits. -/
def pushDigits (m : BitVec 80) (l : List Nibble) : BitVec 80 := l.foldl (fun m x => (m <<< 4) ||| x.setWidth 80) m

theorem materialOfDigits_eq_pushDigits (d : Vector Nibble 20) : materialOfDigits d = pushDigits 0 d.toList := rfl

theorem pushDigits_concat (m : BitVec 80) (l : List Nibble) (x : Nibble) :
    pushDigits m (l ++ [x]) = (pushDigits m l <<< 4) ||| x.setWidth 80 := by
  simp [pushDigits]

/-- The digit pushed last is the lowest. -/
theorem extractLsb'_push_zero (m : BitVec 80) (x : Nibble) : ((m <<< 4) ||| x.setWidth 80).extractLsb' 0 4 = x := by
  refine BitVec.eq_of_getLsbD_eq fun k hk => ?_
  have hk80 : k < 80 := by omega
  simp [hk, hk80]

/-- Pushing a digit moves every earlier one up by one. -/
theorem extractLsb'_push_succ (m : BitVec 80) (x : Nibble) {j : Nat} (hj : j < 19) :
    ((m <<< 4) ||| x.setWidth 80).extractLsb' (4 * (j + 1)) 4 = m.extractLsb' (4 * j) 4 := by
  refine BitVec.eq_of_getLsbD_eq fun k hk => ?_
  have hin : 4 * (j + 1) + k < 80 := by omega
  have hup : ¬ 4 * (j + 1) + k < 4 := by omega
  have hdown : 4 * (j + 1) + k - 4 = 4 * j + k := by omega
  have hx : x.getLsbD (4 * (j + 1) + k) = false := BitVec.getLsbD_of_ge x _ (by omega)
  simp only [BitVec.getLsbD_extractLsb', BitVec.getLsbD_or, BitVec.getLsbD_shiftLeft, BitVec.getLsbD_setWidth, hk, hin,
    hup, hdown, hx]
  simp

/-- Of at most 20 digits, the `j`-th from the end is the `j`-th nibble from the bottom. -/
theorem extractLsb'_pushDigits (m : BitVec 80) (l : List Nibble) {j : Nat} (hj : j < l.length) (hj20 : j < 20) :
    (pushDigits m l).extractLsb' (4 * j) 4 = l[l.length - 1 - j] := by
  induction l using List.reverseRecOn generalizing j with
  | nil => simp at hj
  | append_singleton l x ih =>
    rw [pushDigits_concat]
    cases j with
    | zero => simp [extractLsb'_push_zero]
    | succ j =>
      rw [List.length_append, List.length_singleton] at hj
      have hjl : j < l.length := by omega
      have hidx : (l ++ [x]).length - 1 - (j + 1) = l.length - 1 - j := by
        rw [List.length_append, List.length_singleton]
        omega
      rw [extractLsb'_push_succ _ _ (by omega), ih hjl (by omega)]
      simp only [hidx]
      rw [List.getElem_append_left]

/-- Digit `n` of the material, the first most significant. -/
theorem extractLsb'_materialOfDigits (d : Vector Nibble 20) {n : Nat} (hn : n < 20) :
    (materialOfDigits d).extractLsb' (4 * (19 - n)) 4 = d[n] := by
  have hlen : d.toList.length = 20 := by simp
  have h := extractLsb'_pushDigits 0 d.toList (j := 19 - n) (by omega) (by omega)
  have hidx : d.toList.length - 1 - (19 - n) = n := by omega
  simp only [hidx] at h
  rwa [Vector.getElem_toList, ← materialOfDigits_eq_pushDigits] at h

/-- Settles O56: a slice is its four nibbles, and nibble `19 - n` is digit `n`. -/
theorem keySlicesAreTheDigits : Obligations.KeySlicesAreTheDigits := by
  intro d i hi
  have hdigit (n : Nat) (hn : n < 20) := extractLsb'_materialOfDigits d hn
  rw [← hdigit (4 * i) (by omega), ← hdigit (4 * i + 1) (by omega), ← hdigit (4 * i + 2) (by omega),
    ← hdigit (4 * i + 3) (by omega), keySlice,
    BitVec.extractLsb'_append_extractLsb'_eq_extractLsb' (by omega),
    BitVec.extractLsb'_append_extractLsb'_eq_extractLsb' (by omega),
    BitVec.extractLsb'_append_extractLsb'_eq_extractLsb' (by omega)]
  have hlow : 4 * (19 - (4 * i + 3)) = 64 - 16 * i := by omega
  rw [hlow]

end Sys2Proof.Machine
end

section
/-! PROOF. What the window hides (10_state.md sections 2 and 6): no event that is no command reads or writes a round key or a
table, but for reset. -/

namespace Sys2Proof.Machine

/-- The state with the round keys and all tables of another. -/
def State.withKeysAndTablesOf (s k : State) : State :=
  { s with
    rk := k.rk, sStg := k.sStg, siStg := k.siStg, pStg := k.pStg
    sAct := k.sAct, siAct := k.siAct, pAct := k.pAct, piAct := k.piAct }

/-- Both stop alike, or both go on to states that differ in round keys and tables alone. -/
def AlikeButKeysAndTables (o o' : Host.Outcome State Fault Refusal) : Prop :=
  match o, o' with
  | .next t, .next u => u = t.withKeysAndTablesOf u
  | .fault x, .fault y => x = y
  | .refused x, .refused y => x = y
  | _, _ => False

section
variable (s k : State)

theorem readReg_withKeysAndTablesOf (off : Nat) : readReg (s.withKeysAndTablesOf k) off = readReg s off := rfl

theorem writeReg_withKeysAndTablesOf (off : Nat) (v : Word) :
    writeReg (s.withKeysAndTablesOf k) off v = (writeReg s off v).withKeysAndTablesOf k := by
  unfold writeReg
  split_ifs <;> rfl

theorem alike_next_withKeysAndTablesOf : AlikeButKeysAndTables (.next s) (.next (s.withKeysAndTablesOf k)) := rfl

/-- The guard looks at the access alone. -/
theorem alike_guardAccess {a : Access} {o o' : Host.Outcome State Fault Refusal}
    (h : a.bytes = 4 → AlikeButKeysAndTables o o') : AlikeButKeysAndTables (guardAccess a o) (guardAccess a o') := by
  unfold guardAccess
  split_ifs with hout hword
  · rfl
  · exact h hword.1
  · rfl

/-- A read returns no key or table entry, a register write stores none, and reset replaces them all. -/
theorem serve_alike {ev : PortEvent} (hev : ∀ w, ev ≠ busWrite 0x0C w) :
    AlikeButKeysAndTables (serve ev s) (serve ev (s.withKeysAndTablesOf k)) := by
  cases ev with
  | read a =>
    refine alike_guardAccess fun _ => ?_
    rw [readReg_withKeysAndTablesOf]
    exact alike_next_withKeysAndTablesOf _ k
  | write a v =>
    obtain ⟨off, bytes⟩ := a
    refine alike_guardAccess fun hbytes => ?_
    have hcmd : off ≠ cmdOffset := by
      rintro rfl
      cases hbytes
      exact hev v rfl
    rw [serveWrite_of_ne_cmd hcmd, serveWrite_of_ne_cmd hcmd, writeReg_withKeysAndTablesOf]
    exact alike_next_withKeysAndTablesOf _ k
  | straddle below bytes => rfl
  | reset => rfl
  | resetDuring w => rfl

end

/-- Settles O52: a step with one event waiting serves it. -/
theorem keysAndTablesAreNotInTheWindow : Obligations.KeysAndTablesAreNotInTheWindow := fun s rk a b c d e f g _ hev =>
  serve_alike { s with pending := [] }
    { s with rk := rk, sStg := a, siStg := b, pStg := c, sAct := d, siAct := e, pAct := f, piAct := g } hev

end Sys2Proof.Machine
end

section
/-! PROOF. Several masters (20_memory.md section 5, R59): the merged orders are the ways to give each place to a master. -/

namespace Sys2Proof.Machine

/-- The transactions in the places given to master `m`, in order. -/
def placesOf (m : Nat) (tagged : List (Nat × PortEvent)) : List PortEvent :=
  (tagged.filter fun p => p.1 = m).map (·.2)

/-- Every place is given to a master, and each master's places, read in order, are its whole sequence. -/
def SharesOut (queues : List (List PortEvent)) (tagged : List (Nat × PortEvent)) : Prop :=
  (∀ p ∈ tagged, p.1 < queues.length) ∧ ∀ (m : Nat) (h : m < queues.length), placesOf m tagged = queues[m]

@[simp] theorem placesOf_cons_self (m : Nat) (e : PortEvent) (tagged : List (Nat × PortEvent)) :
    placesOf m ((m, e) :: tagged) = e :: placesOf m tagged := by
  simp [placesOf]

theorem placesOf_cons_of_ne {m n : Nat} (h : n ≠ m) (e : PortEvent) (tagged : List (Nat × PortEvent)) :
    placesOf m ((n, e) :: tagged) = placesOf m tagged := by
  simp [placesOf, h]

theorem sharesOut_nil (queues : List (List PortEvent)) : SharesOut queues [] ↔ ∀ q ∈ queues, q = [] := by
  constructor
  · rintro ⟨-, h⟩ q hq
    obtain ⟨m, hm, rfl⟩ := List.mem_iff_getElem.1 hq
    exact (h m hm).symm
  · intro h
    exact ⟨nofun, fun m hm => (h _ (List.getElem_mem hm)).symm⟩

/-- The first place takes the head of its master's queue. -/
theorem sharesOut_cons (queues : List (List PortEvent)) (m : Nat) (e : PortEvent) (tagged : List (Nat × PortEvent)) :
    SharesOut queues ((m, e) :: tagged) ↔
      ∃ (h : m < queues.length) (rest : List PortEvent), queues[m] = e :: rest ∧ SharesOut (queues.set m rest) tagged := by
  constructor
  · rintro ⟨hmem, hplaces⟩
    have hm : m < queues.length := hmem (m, e) List.mem_cons_self
    refine ⟨hm, placesOf m tagged, by rw [← hplaces m hm, placesOf_cons_self], fun p hp => ?_, fun n hn => ?_⟩
    · rw [List.length_set]
      exact hmem p (List.mem_cons_of_mem _ hp)
    · rw [List.length_set] at hn
      by_cases hmn : m = n
      · subst hmn
        rw [List.getElem_set_self]
      · rw [List.getElem_set_ne hmn, ← hplaces n hn, placesOf_cons_of_ne hmn]
  · rintro ⟨hm, rest, hqueue, hmem, hplaces⟩
    rw [List.length_set] at hmem
    refine ⟨List.forall_mem_cons.2 ⟨hm, hmem⟩, fun n hn => ?_⟩
    have hn' := hplaces n (by rwa [List.length_set])
    by_cases hmn : m = n
    · subst hmn
      rw [List.getElem_set_self] at hn'
      rw [placesOf_cons_self, hn', hqueue]
    · rw [List.getElem_set_ne hmn] at hn'
      rw [placesOf_cons_of_ne hmn, hn']

theorem interleaves_iff_sharesOut (queues : List (List PortEvent)) (merged : List PortEvent) :
    interleaves queues merged = true ↔ ∃ tagged, tagged.map (·.2) = merged ∧ SharesOut queues tagged := by
  induction merged generalizing queues with
  | nil => simp [sharesOut_nil]
  | cons e merged ih =>
    rw [interleaves_cons]
    constructor
    · rintro ⟨m, hm, rest, hqueue, hrest⟩
      obtain ⟨tagged, rfl, htagged⟩ := (ih _).1 hrest
      exact ⟨(m, e) :: tagged, rfl, (sharesOut_cons queues m e tagged).2 ⟨hm, rest, hqueue, htagged⟩⟩
    · rintro ⟨tagged, hmap, hshares⟩
      obtain ⟨⟨m, e'⟩, tagged', rfl, rfl, rfl⟩ := List.map_eq_cons_iff.1 hmap
      obtain ⟨hm, rest, hqueue, hrest⟩ := (sharesOut_cons queues m e' tagged').1 hshares
      exact ⟨m, hm, rest, hqueue, (ih _).2 ⟨tagged', rfl, hrest⟩⟩

/-- A merged order takes every transaction from its queue once. -/
theorem perm_of_interleaves {queues : List (List PortEvent)} {merged : List PortEvent}
    (h : interleaves queues merged = true) : merged.Perm queues.flatten := by
  induction merged generalizing queues with
  | nil => rw [List.flatten_eq_nil_iff.2 ((interleaves_nil queues).1 h)]
  | cons e merged ih =>
    obtain ⟨m, hm, rest, hqueue, hrest⟩ := (interleaves_cons queues e merged).1 h
    calc List.Perm (e :: merged) (e :: (queues.set m rest).flatten) := (ih hrest).cons e
      _ = e :: ((queues.take m).flatten ++ (rest ++ (queues.drop (m + 1)).flatten)) := by
        rw [List.set_eq_take_append_cons_drop, if_pos hm, List.flatten_append, List.flatten_cons]
      List.Perm _ ((queues.take m).flatten ++ (e :: rest ++ (queues.drop (m + 1)).flatten)) := List.perm_middle.symm
      _ = queues.flatten := by
        rw [← hqueue, ← List.flatten_cons, ← List.flatten_append, List.getElem_cons_drop, List.take_append_drop]

theorem sublist_of_interleaves {queues : List (List PortEvent)} {merged : List PortEvent}
    (h : interleaves queues merged = true) : ∀ q ∈ queues, q.Sublist merged := by
  intro q hq
  obtain ⟨m, hm, rfl⟩ := List.mem_iff_getElem.1 hq
  obtain ⟨tagged, rfl, -, hplaces⟩ := (interleaves_iff_sharesOut queues merged).1 h
  rw [← hplaces m hm]
  exact List.filter_sublist.map _

/-- A single master has every place. -/
theorem interleaves_singleton (q merged : List PortEvent) : interleaves [q] merged = true ↔ merged = q := by
  constructor
  · intro h
    have hperm : merged.Perm q := by simpa using perm_of_interleaves h
    exact ((sublist_of_interleaves h q List.mem_cons_self).eq_of_length hperm.length_eq.symm).symm
  · rintro rfl
    refine (interleaves_iff_sharesOut _ _).2 ⟨merged.map (0, ·), by simp, by simp, fun m hm => ?_⟩
    obtain rfl : m = 0 := Nat.lt_one_iff.1 hm
    simp [placesOf, List.filter_map, Function.comp_def]

/-- Settles O55: a merged order is a way to give each place to a master, and a permutation that keeps each queue's order. -/
theorem interleavingsKeepEachMastersOrder : Obligations.InterleavingsKeepEachMastersOrder :=
  ⟨fun _ _ h => ⟨perm_of_interleaves h, sublist_of_interleaves h⟩, interleaves_iff_sharesOut, interleaves_singleton⟩

end Sys2Proof.Machine
end

section
/-! PROOF. Blocks on a bus (10_state.md section 6, 20_memory.md sections 2 and 4): what an access to bus addresses is to a block,
and that blocks with disjoint windows share no event (R51, R197). -/

namespace Sys2Proof.Machine

/-- Settles O57: the two bounds that `windowOffset` checks. -/
theorem windowIsTheBytesFromBase : Obligations.WindowIsTheBytesFromBase := fun _ _ _ => windowOffset_eq_some

/-! ### One event on the bus (R51) -/

theorem atBlock_singleton (base : Nat) (e : BusEvent) : atBlock base [e] = (e.toPort base).toList := by
  rw [atBlock_cons, atBlock_nil, List.append_nil]

/-- A program of one event, from a state where nothing waits, is serving that event. -/
theorem runProgram_singleton {s : State} (hs : s.pending = []) (e : PortEvent) : runProgram [e] s = serve e s := by
  have hstep : step (s.load [e]) = serve e s := by
    rw [step_cons (e := e) (rest := []) (by rw [State.load_pending, hs, List.nil_append]), ← hs]
    rfl
  rw [runProgram_of_nil hs, List.length_singleton, runSteps, hstep]
  cases serve e s <;> rfl

theorem runProgram_nil {s : State} (hs : s.pending = []) : ∃ t, runProgram [] s = .next t :=
  ⟨_, runProgram_of_nil hs []⟩

/-- What a block makes of one access, read or write: it stops exactly at one that touches the window and is not admitted. -/
theorem runProgram_accessAtBlock_iff {base addr bytes : Nat} {s : State} {inside : Access → PortEvent} (hbytes : 0 < bytes)
    (hs : s.pending = [])
    (hinside : ∀ a, (∃ t, serve (inside a) s = .next t) ↔ (a.bytes = 4 ∧ a.offset % 4 = 0 ∧ a.offset ≤ 0xFC)) :
    (∃ t, runProgram (accessAtBlock base addr bytes inside).toList s = .next t) ↔
      (addr + bytes ≤ base ∨ base + 0x100 ≤ addr) ∨
      (bytes = 4 ∧ ∃ off, addr = base + off ∧ off % 4 = 0 ∧ off ≤ 0xFC) := by
  have hsize : Config.windowSize = 0x100 := rfl
  obtain ⟨off, hoff, rfl, h⟩ | ⟨hbelow, hinto, h⟩ | ⟨haway, h⟩ := accessAtBlock_cases base addr bytes inside <;> rw [h]
  · rw [Option.toList_some, runProgram_singleton hs, hinside]
    constructor
    · rintro ⟨h4, halign, hle⟩
      exact .inr ⟨h4, off, rfl, halign, hle⟩
    · rintro (haway | ⟨h4, off', haddr, halign, hle⟩)
      · omega
      · obtain rfl : off = off' := Nat.add_left_cancel haddr
        exact ⟨h4, halign, hle⟩
  · rw [Option.toList_some, runProgram_singleton hs]
    constructor
    · rintro ⟨t, ht⟩
      cases ht
    · rintro (haway | ⟨-, off, haddr, -⟩) <;> omega
  · exact iff_of_true (runProgram_nil hs) (.inl (hsize ▸ haway))

/-- Settles O58: serving an access that the block is given completes exactly where the guard admits it. -/
theorem busAccessTouchingTheWindowIsAdmittedOrStops : Obligations.BusAccessTouchingTheWindowIsAdmittedOrStops := by
  rintro base addr bytes v s e hbytes hs (rfl | rfl) <;> rw [atBlock_singleton]
  · exact runProgram_accessAtBlock_iff (inside := .read) hbytes hs fun a => guardAccess_completes_iff a ⟨_, rfl⟩
  · exact runProgram_accessAtBlock_iff (inside := (.write · v)) hbytes hs fun a =>
      guardAccess_completes_iff a (serveWrite_completes a.offset v s)

/-! ### Blocks with disjoint windows (R197) -/

/-- An admitted access lies in the window of its block with all its bytes, so it touches no byte of a disjoint one. -/
theorem accessAtBlock_of_disjoint {a b addr bytes : Nat} {p : PortEvent} {inside : Access → PortEvent}
    (hdisjoint : a + 0x100 ≤ b ∨ b + 0x100 ≤ a)
    (hinside : ∀ x, (inside x).admitted = true → x.bytes = 4 ∧ x.offset % 4 = 0 ∧ x.offset ≤ 0xFC)
    (ha : accessAtBlock a addr bytes inside = some p) (hp : p.admitted = true) :
    accessAtBlock b addr bytes inside = none := by
  have hsize : Config.windowSize = 0x100 := rfl
  obtain ⟨off, -, rfl, h⟩ | ⟨-, -, h⟩ | ⟨-, h⟩ := accessAtBlock_cases a addr bytes inside <;> rw [h] at ha
  · cases ha
    obtain ⟨hbytes, -, hle⟩ := hinside _ hp
    simp only at hbytes hle
    obtain ⟨off', hoff', haddr, -⟩ | ⟨hbelow, hinto, -⟩ | ⟨-, hnone⟩ := accessAtBlock_cases b (a + off) bytes inside
    · omega
    · omega
    · exact hnone
  · cases ha
    cases hp
  · cases ha

/-- Settles O59: an access that has a step touches one window alone, and a reset names its block. -/
theorem disjointBlocksShareNoAdmittedEvent : Obligations.DisjointBlocksShareNoAdmittedEvent := by
  intro a b e p hdisjoint ha hp
  rw [atBlock_singleton] at ha ⊢
  have hsome : e.toPort a = some p := by simpa using ha
  have hadmitted (x : Access) := (admittedAccess_iff x).1
  have hne : b ≠ a := by omega
  have hnone : e.toPort b = none := by
    cases e with
    | read addr bytes =>
      exact accessAtBlock_of_disjoint (inside := .read) hdisjoint (fun x hx => hadmitted x (of_decide_eq_true hx)) hsome hp
    | write addr bytes v =>
      exact accessAtBlock_of_disjoint (inside := (.write · v)) hdisjoint
        (fun x hx => hadmitted x (of_decide_eq_true hx)) hsome hp
    | reset base =>
      obtain ⟨rfl, -⟩ : base = a ∧ _ := by simpa [BusEvent.toPort] using hsome
      exact if_neg hne.symm
    | resetDuring base w =>
      obtain ⟨rfl, -⟩ : base = a ∧ _ := by simpa [BusEvent.toPort] using hsome
      exact if_neg hne.symm
  rw [hnone, Option.toList_none]

end Sys2Proof.Machine
end
